-- ==== Sys2Proof/Word.lean ====
section
/-! DEFINITION. The widths of the block's values (00_scope R12, R13): bytes and 32-bit words, unsigned. -/

namespace Sys2Proof

/-- A byte: 8 bits, unsigned (R12). -/
abbrev Byte := BitVec 8

/-- A 32-bit unsigned value: argument, sector number, sector count, card address, OCR, echo, timestamp (R12). -/
abbrev Word := BitVec 32

end Sys2Proof
end

