-- ==== Sys2Proof/Config.lean ====
section
/-! DEFINITION. What is fixed for the block (00_scope R10) and the free values: constants with no body, so that
nothing can be proved about which value they have. -/

namespace Sys2Proof.Config

/-- Bytes per sector (R10). -/
def sectorSize : Nat := 512
/-- Bytes per command frame (R10). -/
def frameLen : Nat := 6
/-- The CRC-7 polynomial including the x^7 term (R10). -/
def crc7Poly : Byte := 0x89
/-- Entries of the CRC-7 table (R10). -/
def crcTableLen : Nat := 256
/-- Most CMD55/ACMD41 iterations (R10, R156). -/
def nInitIter : Nat := 1600
/-- Least number of wake bytes (R10, R152). -/
def minWake : Nat := 100
/-- The CMD8 argument (R10, R154). -/
def ifCondArg : Word := 0x000001AA
/-- The echo CMD8 requires, 426 decimal (R10, R154). -/
def ifCondEcho : Word := 426
/-- The ACMD41 argument (R10, R156). -/
def hcsArg : Word := 0x40000000
/-- Physical drive numbers supported: only drive 0 (R10, R210). -/
def drives : Nat := 1
/-- Bytes of the scratch buffer (R10, R54). -/
def scratchLen : Nat := 512
/-- The largest start sector accepted for a standard-capacity card (R215). -/
def maxScSector : Word := 0x007FFFFF

/-- FREE VALUE: what a read of `st.is_hc` gives while the field holds no value (R24, 93 U2; log entry 26). -/
opaque unsetAddressing : Bool
/-- FREE VALUE: whether the transport answers OK to the `n`-th answer past the listed ones (R50, 93 U10). -/
opaque transportOk : Nat → Bool
/-- FREE VALUE: byte `i` of the `n`-th answer, where the listed answer does not give it (R50, 93 U9). -/
opaque cardByte : Nat → Nat → Byte
/-- FREE VALUE: the scratch buffer after the `n`-th answered call (R28, 93 U1). -/
opaque scratchAfter : Nat → Vector Byte 512
/-- FREE VALUE: loop counter `which` (0 iter, 1 polls, 2 k) after an operation has ended (R31, 93 U3). -/
opaque deadCounter : Nat → Nat → Nat
/-- FREE VALUE: byte `i` of the caller's buffer after a failed read (R192, 93 U4). -/
opaque bufferByte : Nat → Nat → Byte
/-- FREE VALUE: calendar field `which` (0 year to 5 second) of the `n`-th answer of the time source past the listed ones
(R217, 93 U23). -/
opaque calendarField : Nat → Nat → Nat

end Sys2Proof.Config
end

