-- ==== Sys2Proof/Machine/Crc7.lean ====
section
/-! DEFINITION. The CRC-7 table engine and the byte orders of the block, as pure functions (40_crc7_framer R100 to
R103, 20_memory R56, R57, 00_scope R14). -/

namespace Sys2Proof.Machine

/-- The CRC-7 table: 256 cells of 8 bits (R26). -/
abbrev CrcTable := Vector Byte 256

/-- XOR with the polynomial when bit 7 is set: the correction R100 applies first and after each shift. -/
def crcCorrect (t : Byte) : Byte := if t.getLsbD 7 then t ^^^ Config.crc7Poly else t

/-- One of R100's seven repetitions: an 8-bit left shift and the correction. -/
def crcShift (t : Byte) : Byte := crcCorrect (t <<< 1)

/-- Entry `i` of the table (R100). -/
def crcEntry (i : Byte) : Byte := Nat.repeat crcShift 7 (crcCorrect i)

/-- The table `build_table()` makes (R100). -/
def builtTable : CrcTable := Vector.ofFn fun i => crcEntry (BitVec.ofNat 8 i.val)

/-- The index `fold` looks up (R102): the shift is truncated to 8 bits. -/
def foldIndex (crc byte : Byte) : Byte := (crc <<< 1) ^^^ byte

/-- `fold(crc, byte)` over a given table (R102). -/
def foldWith (t : CrcTable) (crc byte : Byte) : Byte := t[(foldIndex crc byte).toNat]

/-- `compute(bytes)` over a given table, the fold started from 0 (R103). -/
def computeWith (t : CrcTable) (bytes : List Byte) : Byte := bytes.foldl (foldWith t) 0

/-- The four bytes of a word, most significant first (R56). -/
def wordBytes (w : Word) : List Byte :=
  [w.extractLsb' 24 8, w.extractLsb' 16 8, w.extractLsb' 8 8, w.extractLsb' 0 8]

/-- `be32` (R14, R57): four bytes reassembled big-endian. -/
def be32 (b0 b1 b2 b3 : Byte) : Word :=
  (b0.setWidth 32 <<< 24) ||| (b1.setWidth 32 <<< 16) ||| (b2.setWidth 32 <<< 8) ||| b3.setWidth 32

/-- `be32` of the first four bytes of a sequence; every use has exactly four (R142). -/
def be32OfBytes (s : List Byte) : Word := be32 (s.getD 0 0) (s.getD 1 0) (s.getD 2 0) (s.getD 3 0)

/-- Frame byte 0 (R71): start bit 0, transmission bit 1, the index. -/
def frameByte0 (index : Nat) : Byte := 0x40 ||| BitVec.ofNat 8 index

/-- Frame byte 5 (R73): the CRC in bits 7:1 and the stop bit. -/
def frameByte5 (crc : Byte) : Byte := (crc <<< 1) ||| 1

/-- Frame bytes 0 to 4 (R105). -/
def frameHead (index : Nat) (arg : Word) : List Byte := frameByte0 index :: wordBytes arg

/-- The frame of `assemble(index, arg)` over a given table (R105). -/
def frameWith (t : CrcTable) (index : Nat) (arg : Word) : List Byte :=
  frameHead index arg ++ [frameByte5 (computeWith t (frameHead index arg))]

/-- The reference bit-wise CRC-7 of R101, one message bit: shift the 7-bit register left, XOR with x^3 + 1 when the bit
shifted out differs from the message bit. -/
def bitwiseCrcBit (crc : BitVec 7) (bit : Bool) : BitVec 7 :=
  if crc.getLsbD 6 != bit then (crc <<< 1) ^^^ 0x09 else crc <<< 1

/-- The reference bit-wise CRC-7, one byte, most significant bit first (R101). -/
def bitwiseCrcByte (crc : BitVec 7) (b : Byte) : BitVec 7 :=
  [7, 6, 5, 4, 3, 2, 1, 0].foldl (fun c i => bitwiseCrcBit c (b.getLsbD i)) crc

/-- The reference bit-wise CRC-7 of a byte sequence (R101, R103). -/
def bitwiseCrc (bytes : List Byte) : BitVec 7 := bytes.foldl bitwiseCrcByte 0

end Sys2Proof.Machine
end

