-- ==== Sys2Proof/Syntax.lean ====
section
/-! DEFINITION. The operations of the block: one constructor of `Instr` per row of spec/opcode_table.json, and the
types of their operands. -/

namespace Sys2Proof

/-- Chip-select policies (R17, R125): leave as it is, assert then transfer, transfer then deassert. -/
inductive Policy where
  | none | assert | deassert
  deriving DecidableEq, Repr

/-- The two clock rates, known to the block by name only (R11): SLOW_RATE and FAST_RATE. -/
inductive Rate where
  | slow | fast
  deriving DecidableEq, Repr

/-- Response shapes of a command transaction (R140): R1 alone, or R1 and four more bytes (R3 and R7). -/
inductive Shape where
  | r1 | r5
  deriving DecidableEq, Repr

/-- The start tokens a block can be sent with (R183): 0xFE (CMD24) and 0xFC (CMD25). -/
inductive BlockToken where
  | single | multi
  deriving DecidableEq, Repr

/-- A caller-owned buffer (R55): `len` bytes of the callers' memory from address `base`. -/
structure Buffer where
  base : Nat
  len  : Nat
  deriving DecidableEq, Repr

/-- What ends a response poll (R141): the first byte other than 0xFF, or the budget. -/
inductive Resp where
  | byte (b : Byte)
  | timeout
  deriving DecidableEq, Repr

/-- The abort causes 1 to 15 of R230. `NONE` (0) is `Option.none` of the field that holds the cause. -/
inductive AbortCause where
  | transport | clockRejected | respTimeout | cmd0NotIdle | cmd8BadR1 | cmd8BadEcho | ocrNo3v3 | appCmdIllegal
  | initTimeout | ocrNotPowered | cmdBadR1 | badToken | tokenTimeout | dataRejected | busyTimeout
  deriving DecidableEq, Repr

/-- The configuration rejections 16 to 18 of R230, which are not aborts (R233). -/
inductive Rejection where
  | badDrive | zeroCount | outOfRange
  deriving DecidableEq, Repr

/-- The three classes of failure (R231 to R233): transport, protocol, configuration. -/
inductive FailureClass where
  | transport | protocol | configuration
  deriving DecidableEq, Repr

/-- The operations of spec/opcode_table.json, in the table's order. -/
inductive Instr where
  -- command frames (R83)
  | cmd0
  | cmd8
  | cmd12
  | cmd17 (arg : Word)
  | cmd18 (arg : Word)
  | cmd24 (arg : Word)
  | cmd25 (arg : Word)
  | cmd55
  | cmd58
  | acmd23 (arg : Word)
  | acmd41
  -- tokens (R80), data response (R81), responses (R74, R76, R77)
  | tokenStartBlock
  | tokenStartMultiWrite
  | tokenStopTran
  | dataResponseAccepted (upper : BitVec 4)
  | r1 (b : Byte)
  | r3 (b : Byte) (ocr : Word)
  | r7 (b : Byte) (echo : Word)
  -- host calls (R89, R210)
  | hostStatus (drive : Nat)
  | hostInitialize (drive : Nat)
  | hostRead (drive : Nat) (buf : Buffer) (sector count : Word)
  | hostWrite (drive : Nat) (buf : Buffer) (sector count : Word)
  | hostSync (drive : Nat)
  | hostTimestamp
  -- CRC-7 engine and framer (R100 to R106)
  | buildTable
  | fold (crc byte : Byte)
  | compute (bytes : List Byte)
  | assemble (index : Nat) (arg : Word)
  -- transport adapter (R121 to R124)
  | xferWrite (bytes : List Byte) (pol : Policy)
  | xferRead (n : Nat) (pol : Policy)
  | xferReadWrite (out : List Byte) (pol : Policy)
  | xferSetClock (rate : Rate)
  -- session primitives (R140 to R145, R237)
  | sendCmd (index : Nat) (arg : Word) (shape : Shape)
  | pollResponse
  | pollToken
  | busyWait
  | release
  | cleanup
  -- session operations (R150 to R190)
  | sessionInitialize
  | addressFor (sector : Word)
  | ensureReady
  | receiveBlock (buf : Buffer) (off : Nat)
  | checkDataResponse
  | sendBlock (token : BlockToken) (buf : Buffer) (off : Nat)
  | readSingle (buf : Buffer) (sector : Word)
  | readMulti (buf : Buffer) (sector count : Word)
  | writeSingle (buf : Buffer) (sector : Word)
  | writeMulti (buf : Buffer) (sector count : Word)
  -- abort path and reset (R236, R260)
  | abortPath (c : AbortCause)
  | resetBlock
  deriving DecidableEq, Repr

end Sys2Proof
end

