-- ==== Sys2Proof/WellFormed.lean ====
section
/-! DEFINITION. The operand domains the spec gives each operation. -/

namespace Sys2Proof

/-- The eleven command indices the session sends (R83). -/
def commandIndices : List Nat := [0, 8, 12, 17, 18, 23, 24, 25, 41, 55, 58]

/-- Whether the buffer holds `count` sectors (R55). A longer one is taken too, its first `count * 512` bytes being used: the
model's choice, log entry 19. -/
def Buffer.holds (buf : Buffer) (count : Word) : Bool := count.toNat * Config.sectorSize ≤ buf.len

/-- Whether the buffer holds a sector at byte offset `off` (R55, R179, R183); what follows the sector is not used (log entry
19). -/
def Buffer.holdsSectorAt (buf : Buffer) (off : Nat) : Bool := off + Config.sectorSize ≤ buf.len

/-- The operand conditions of each operation, as its rule states them. An R1 byte is never 0xFF (R79), a `fold`'s CRC
has 7 bits (R102), a frame's index has 6 (R71), a transfer moves at least one byte (R121 to R123), a buffer holds what
is moved through it (R55), a multi-sector operation has at least two sectors (R178, R190). -/
def Instr.wellFormed : Instr → Bool
  | .cmd0 | .cmd8 | .cmd12 | .cmd55 | .cmd58 | .acmd41 => true
  | .cmd17 _ | .cmd18 _ | .cmd24 _ | .cmd25 _ | .acmd23 _ => true
  | .tokenStartBlock | .tokenStartMultiWrite | .tokenStopTran | .dataResponseAccepted _ => true
  | .r1 b | .r3 b _ | .r7 b _ => b != 0xFF
  | .hostStatus _ | .hostInitialize _ | .hostSync _ | .hostTimestamp => true
  | .hostRead _ buf _ count | .hostWrite _ buf _ count => buf.holds count
  | .buildTable | .compute _ => true
  | .fold crc _ => crc.toNat < 128
  | .assemble index _ => index ≤ 63
  | .xferWrite bytes _ | .xferReadWrite bytes _ => !bytes.isEmpty
  | .xferRead n _ => 1 ≤ n
  | .xferSetClock _ => true
  | .sendCmd index _ _ => commandIndices.contains index
  | .pollResponse | .pollToken | .busyWait | .release | .cleanup => true
  | .sessionInitialize | .addressFor _ | .ensureReady | .checkDataResponse => true
  | .receiveBlock buf off | .sendBlock _ buf off => buf.holdsSectorAt off
  | .readSingle buf _ | .writeSingle buf _ => buf.holds 1
  | .readMulti buf _ count | .writeMulti buf _ count => 2 ≤ count.toNat && buf.holds count
  | .abortPath _ | .resetBlock => true

end Sys2Proof
end

