-- ==== Sys2Proof/Decode.lean ====
section
/-! DEFINITION. Decoding and encoding of the wire units (30_encoding R70 to R86). A byte's meaning depends on where it
stands (R84, R87), so the decoder is told the slot; the unclassified slot is for a word given with no context. -/

namespace Sys2Proof

open Sys2Proof.Machine (wordBytes be32 frameByte0 frameHead frameByte5 computeWith builtTable)

/-- Where on the wire a unit stands: which rule reads it (R87). -/
inductive Slot where
  | command | token | dataResponse | response1 | response3 | response7 | unclassified
  deriving DecidableEq, Repr

/-- Why bytes are no unit of the slot they stand in. -/
inductive DecodeError where
  /-- no unit of the slot has this many bytes -/
  | badLength (n : Nat)
  /-- frame bits 47:46 are not 01 (R70) -/
  | badStartBits
  /-- frame bit 0 is not 1 (R70) -/
  | badStopBit
  /-- frame bits 7:1 are not the CRC-7 of bytes 0 to 4 (R73) -/
  | badCrc
  /-- one of the 53 indices the block never sends (R86) -/
  | commandNotSent (index : BitVec 6)
  /-- a command whose argument is constant, with another argument (R83) -/
  | badArgument (index : BitVec 6)
  /-- not 0xFE, 0xFC or 0xFD (R80) -/
  | notAToken
  /-- a data response whose low nibble is not 0b0101 (R81) -/
  | notAccepted
  /-- 0xFF where a response byte is read: the bus is idle (R79) -/
  | busIdle
  deriving DecidableEq, Repr

/-- The command of a frame's index and argument (R83). Index 23 or 41 is the application command, whether or not a CMD55
transaction came before, which R84 tells it by: the model's choice, log entry 11. -/
def decodeCommand (index : BitVec 6) (arg : Word) : Except DecodeError Instr :=
  let fixed (want : Word) (i : Instr) : Except DecodeError Instr :=
    if arg = want then .ok i else .error (.badArgument index)
  match index.toNat with
  | 0  => fixed 0 .cmd0
  | 8  => fixed Config.ifCondArg .cmd8
  | 12 => fixed 0 .cmd12
  | 17 => .ok (.cmd17 arg)
  | 18 => .ok (.cmd18 arg)
  | 23 => .ok (.acmd23 arg)
  | 24 => .ok (.cmd24 arg)
  | 25 => .ok (.cmd25 arg)
  | 41 => fixed Config.hcsArg .acmd41
  | 55 => fixed 0 .cmd55
  | 58 => fixed 0 .cmd58
  | _  => .error (.commandNotSent index)

/-- A 6-byte frame (R70): start and transmission bits, stop bit, CRC, then the command. -/
def decodeFrame (b0 b1 b2 b3 b4 b5 : Byte) : Except DecodeError Instr :=
  if b0.extractLsb' 6 2 != 0b01#2 then .error .badStartBits
  else if !b5.getLsbD 0 then .error .badStopBit
  else if b5 != frameByte5 (computeWith builtTable [b0, b1, b2, b3, b4]) then .error .badCrc
  else decodeCommand (b0.extractLsb' 0 6) (be32 b1 b2 b3 b4)

/-- Whether the CRC of a command's frame varies, because its argument does (R83): the opcode table leaves its bits open. -/
def crcVaries (index : BitVec 6) : Bool :=
  match index.toNat with
  | 17 | 18 | 23 | 24 | 25 => true
  | _ => false

/-- A frame as the opcode table writes it, with no context: the CRC bits of a row that leaves them open are not compared,
since the framer computes them (R105; log entry 11). -/
def decodeTableFrame (b0 b1 b2 b3 b4 b5 : Byte) : Except DecodeError Instr :=
  if b0.extractLsb' 6 2 != 0b01#2 then .error .badStartBits
  else if !b5.getLsbD 0 then .error .badStopBit
  else if crcVaries (b0.extractLsb' 0 6) then decodeCommand (b0.extractLsb' 0 6) (be32 b1 b2 b3 b4)
  else decodeFrame b0 b1 b2 b3 b4 b5

/-- A data token (R80). -/
def decodeToken (b : Byte) : Except DecodeError Instr :=
  if b = 0xFE then .ok .tokenStartBlock
  else if b = 0xFC then .ok .tokenStartMultiWrite
  else if b = 0xFD then .ok .tokenStopTran
  else .error .notAToken

/-- A data response (R81): accepted exactly when the low nibble is 0b0101; the upper nibble is any. -/
def decodeDataResponse (b : Byte) : Except DecodeError Instr :=
  if b.extractLsb' 0 4 = 0b0101#4 then .ok (.dataResponseAccepted (b.extractLsb' 4 4)) else .error .notAccepted

/-- An R1 byte (R79): any byte but 0xFF. -/
def decodeR1 (b : Byte) : Except DecodeError Instr := if b = 0xFF then .error .busIdle else .ok (.r1 b)

/-- A lone byte with no context: a token, else an accepted data response, else an R1 (log entry 11). -/
def decodeByte (b : Byte) : Except DecodeError Instr :=
  match decodeToken b with
  | .ok i => .ok i
  | .error _ =>
    match decodeDataResponse b with
    | .ok i => .ok i
    | .error _ => decodeR1 b

/-- A 5-byte R3 (R76). -/
def decodeR3 (b : Byte) (w : Word) : Except DecodeError Instr := if b = 0xFF then .error .busIdle else .ok (.r3 b w)

/-- A 5-byte R7 (R77). -/
def decodeR7 (b : Byte) (w : Word) : Except DecodeError Instr := if b = 0xFF then .error .busIdle else .ok (.r7 b w)

/-- Five bytes with no context: an R7 when they carry the echo CMD8 requires, else an R3 (log entry 11). -/
def decodeFive (b : Byte) (w : Word) : Except DecodeError Instr :=
  if w = Config.ifCondEcho then decodeR7 b w else decodeR3 b w

/-- The decoder: the unit that the bytes are in the slot they stand in, or the reason why they are none. -/
def decode (slot : Slot) (bytes : List Byte) : Except DecodeError Instr :=
  match slot, bytes with
  | .command, [b0, b1, b2, b3, b4, b5] => decodeFrame b0 b1 b2 b3 b4 b5
  | .token, [b] => decodeToken b
  | .dataResponse, [b] => decodeDataResponse b
  | .response1, [b] => decodeR1 b
  | .response3, [b, b1, b2, b3, b4] => decodeR3 b (be32 b1 b2 b3 b4)
  | .response7, [b, b1, b2, b3, b4] => decodeR7 b (be32 b1 b2 b3 b4)
  | .unclassified, [b] => decodeByte b
  | .unclassified, [b, b1, b2, b3, b4] => decodeFive b (be32 b1 b2 b3 b4)
  | .unclassified, [b0, b1, b2, b3, b4, b5] => decodeTableFrame b0 b1 b2 b3 b4 b5
  | _, bytes => .error (.badLength bytes.length)

/-- The frame of a command (R70 to R73). -/
def encodeFrame (index : Nat) (arg : Word) : List Byte :=
  frameHead index arg ++ [frameByte5 (computeWith builtTable (frameHead index arg))]

/-- The slot and the bytes of an operation that has a wire encoding (R70 to R83); host calls and internal operations
have none (R89). -/
def encode : Instr → Option (Slot × List Byte)
  | .cmd0       => some (.command, encodeFrame 0 0)
  | .cmd8       => some (.command, encodeFrame 8 Config.ifCondArg)
  | .cmd12      => some (.command, encodeFrame 12 0)
  | .cmd17 arg  => some (.command, encodeFrame 17 arg)
  | .cmd18 arg  => some (.command, encodeFrame 18 arg)
  | .cmd24 arg  => some (.command, encodeFrame 24 arg)
  | .cmd25 arg  => some (.command, encodeFrame 25 arg)
  | .cmd55      => some (.command, encodeFrame 55 0)
  | .cmd58      => some (.command, encodeFrame 58 0)
  | .acmd23 arg => some (.command, encodeFrame 23 arg)
  | .acmd41     => some (.command, encodeFrame 41 Config.hcsArg)
  | .tokenStartBlock      => some (.token, [0xFE])
  | .tokenStartMultiWrite => some (.token, [0xFC])
  | .tokenStopTran        => some (.token, [0xFD])
  | .dataResponseAccepted upper => some (.dataResponse, [upper ++ 0b0101#4])
  | .r1 b      => some (.response1, [b])
  | .r3 b ocr  => some (.response3, b :: wordBytes ocr)
  | .r7 b echo => some (.response7, b :: wordBytes echo)
  | .hostStatus _ | .hostInitialize _ | .hostRead _ _ _ _ | .hostWrite _ _ _ _ | .hostSync _ | .hostTimestamp => none
  | .buildTable | .fold _ _ | .compute _ | .assemble _ _ => none
  | .xferWrite _ _ | .xferRead _ _ | .xferReadWrite _ _ | .xferSetClock _ => none
  | .sendCmd _ _ _ | .pollResponse | .pollToken | .busyWait | .release | .cleanup => none
  | .sessionInitialize | .addressFor _ | .ensureReady | .receiveBlock _ _ | .checkDataResponse | .sendBlock _ _ _ => none
  | .readSingle _ _ | .readMulti _ _ _ | .writeSingle _ _ | .writeMulti _ _ _ => none
  | .abortPath _ | .resetBlock => none

/-- The bytes of an opcode-table word in the order of the wire. The table writes a unit as one number whose most
significant byte goes first (R70: bit 47 is the first bit of byte 0; log entry 12). -/
def tableBytes (nbits w : Nat) : List Byte :=
  (List.range (nbits / 8)).map fun i => BitVec.ofNat 8 (w >>> (8 * (nbits / 8 - 1 - i)))

/-- The operation the decoder reads from an opcode-table word, with no context. -/
def decodeTableWord (nbits w : Nat) : Option Instr :=
  match decode .unclassified (tableBytes nbits w) with
  | .ok i => some i
  | .error _ => none

end Sys2Proof
end

