-- ==== Sys2Proof/Machine/State.lean ====
section
/-! DEFINITION. The state of the block (10_state R20 to R37), with what stands at its interface (trace, results, caller
buffers, requests, answers), and the reset state (70_reset R260). -/

namespace Sys2Proof.Machine

/-- `st.session` (R22). -/
inductive Session where
  | notInitialized | initializing | ready
  deriving DecidableEq, Repr

/-- `st.cs`, the block's record of the chip-select line (R29). -/
inductive ChipSelect where
  | deasserted | asserted | unknown
  deriving DecidableEq, Repr

/-- `st.clock`, the block's record of the last accepted clock rate (R30). -/
inductive Clock where
  | unknown
  | at (rate : Rate)
  deriving DecidableEq, Repr

/-- The command transactions of initialization, by the step that makes them (42_session_init). -/
inductive InitTx where
  /-- step 2, CMD0 -/
  | goIdle
  /-- step 3, CMD8 -/
  | ifCond
  /-- step 4, first CMD58 -/
  | ocrVoltage
  /-- step 5, CMD55 -/
  | appOpCond
  /-- step 5, ACMD41 -/
  | opCond
  /-- step 6, second CMD58 -/
  | ocrPower
  deriving DecidableEq, Repr

/-- The command transactions of the sector operations (43_session_io). -/
inductive IoTx where
  /-- CMD17 -/
  | readOne
  /-- CMD18 -/
  | readMany
  /-- CMD12 -/
  | stopRead
  /-- CMD24 -/
  | writeOne
  /-- pre-erase CMD55 -/
  | appErase
  /-- ACMD23 -/
  | eraseCount
  /-- CMD25 -/
  | writeMany
  deriving DecidableEq, Repr

/-- A command transaction of the session. -/
inductive Tx where
  | init (x : InitTx)
  | io (x : IoTx)
  deriving DecidableEq, Repr

/-- Direction of a sector transfer. -/
inductive Direction where
  | read | write
  deriving DecidableEq, Repr

/-- The operands of a sector operation (R173 to R190, R213, R214); `multi` tells ReadMulti and WriteMulti from ReadSingle
and WriteSingle. -/
structure Transfer where
  dir    : Direction
  multi  : Bool
  buf    : Buffer
  sector : Word
  count  : Word
  deriving DecidableEq, Repr

/-- The steps of one command transaction (R140 to R145). What a later step needs of an earlier one, the argument, the R1 byte
and the value of a response, which R35 calls transient inputs, stands in the position: log entry 23. -/
inductive TxStep where
  /-- frame write, R140 -/
  | frame (arg : Word)
  /-- response poll, R141 -/
  | poll
  /-- trailing bytes, R142 -/
  | trailing (b : Byte)
  /-- the check of the response -/
  | judge (resp : Resp) (value : Option Word)
  /-- the release after it, R145 -/
  | releaseTx (resp : Resp)
  deriving DecidableEq, Repr

/-- The steps of `initialize()` (R150 to R162): each is the next transport call or internal computation. -/
inductive InitStep where
  /-- step 1a, R151 -/
  | slowClock
  /-- step 1b, R152 -/
  | wake
  /-- a step of one of the transactions -/
  | tx (x : InitTx) (p : TxStep)
  /-- head of the step 5 loop, R156 -/
  | opCondRound
  /-- step 7, R159 -/
  | fastClock
  /-- step 8, R160 -/
  | enterReady
  /-- abort path, its cause recorded, R236 -/
  | cleanup (c : AbortCause)
  deriving DecidableEq, Repr

/-- What a busy wait (R144) ends: the stop of a multi-sector read, a written block, the stop of a multi-sector write. -/
inductive BusyAfter where
  | stopCommand | block | stopToken
  deriving DecidableEq, Repr

/-- The transport calls of a data phase and of its end (R143, R144, R179, R181, R183, R189): each is a step. -/
inductive DataStep where
  /-- start-token poll, R143 -/
  | startToken
  /-- payload read, R179 -/
  | payload
  /-- read CRC, R179 -/
  | readCrc
  /-- token write, R183 -/
  | sendToken
  /-- payload write, R183 -/
  | sendData
  /-- filler CRC, R183 -/
  | sendCrc
  /-- data response, R181 -/
  | dataResponse
  /-- 0xFD, R189 -/
  | stopToken
  /-- busy poll, R144 -/
  | busy (after : BusyAfter)
  /-- final release, R145 -/
  | finalRelease
  deriving DecidableEq, Repr

/-- The steps of a sector operation (R173 to R190, R215). Which internal computations have a step of their own is the
model's choice: log entry 1. -/
inductive IoStep where
  /-- range check of a host call, R215 (b) -/
  | range
  /-- a data command's argument, R170 -/
  | address (x : IoTx)
  /-- a step of one of the transactions -/
  | tx (x : IoTx) (p : TxStep)
  /-- head of the per-sector loop, R176, R188 -/
  | nextBlock (j : Nat)
  /-- a transport call of the data phase or of the end -/
  | data (d : DataStep)
  /-- abort path, its cause recorded, R236 -/
  | cleanup (c : AbortCause)
  deriving DecidableEq, Repr

/-- The steps of a wire row or a session primitive run alone (log entries 9 and 18). -/
inductive AloneStep where
  /-- a step of its command transaction or response poll -/
  | tx (p : TxStep)
  /-- a transport call of its data phase or of its end -/
  | data (d : DataStep)
  /-- abort path, its cause recorded, R236 -/
  | cleanup (c : AbortCause)
  deriving DecidableEq, Repr

/-- `st.seq`, the sequencer position (R21, R33): IDLE, or an operation and the step it is at. The operation is held with its
operands, the step with its locals: log entry 23. -/
inductive Seq where
  | idle
  /-- an initialization, alone or run by the ready check of a host's sector call (R171), which then goes on -/
  | bringUp (next : Option Transfer) (step : InitStep)
  /-- a host's sector call once the session is ready (R213, R214) -/
  | transfer (t : Transfer) (step : IoStep)
  /-- a sector operation run alone (R173 to R190) -/
  | sector (t : Transfer) (step : IoStep)
  /-- a wire row or a session primitive run alone -/
  | alone (i : Instr) (step : AloneStep)
  deriving DecidableEq, Repr

/-- One recorded transport call with its answer (R126). `none` is FAIL. -/
inductive Event where
  | write (bytes : List Byte) (pol : Policy) (ok : Bool)
  | read (n : Nat) (pol : Policy) (ans : Option (List Byte))
  | readWrite (out : List Byte) (pol : Policy) (ans : Option (List Byte))
  | setClock (rate : Rate) (ok : Bool)
  deriving DecidableEq, Repr

/-- One answer of the environment (R50). The bytes matter to calls that read. -/
inductive Answer where
  | fail
  | ok (bytes : List Byte)
  deriving DecidableEq, Repr

/-- One answer of the time source (R217). -/
structure Calendar where
  year   : Nat
  month  : Nat
  day    : Nat
  hour   : Nat
  minute : Nat
  second : Nat
  deriving DecidableEq, Repr

/-- The open parameters of R11 that are numbers. -/
structure Params where
  nWake  : Nat
  nResp  : Nat
  nToken : Nat
  nBusy  : Nat
  deriving DecidableEq, Repr

/-- The constraints of R11. -/
def Params.wf (p : Params) : Bool := Config.minWake ≤ p.nWake && 1 ≤ p.nResp && 1 ≤ p.nToken && 1 ≤ p.nBusy

/-- What the last call or operation returned (R18 and each operation's rule). -/
inductive Result where
  /-- nothing has returned yet -/
  | nothing
  /-- an operation that returns no value has ended -/
  | done
  /-- OK -/
  | ok
  /-- FAILED, after an abort -/
  | failed
  /-- FAILED, a configuration rejection (R215, R233) -/
  | rejected (r : Rejection)
  /-- NOT_READY (R211) -/
  | notReady
  /-- FAIL of a transport primitive (R121 to R124) -/
  | xferFail
  /-- OK(bytes) of a transport read, or a frame (R105) -/
  | bytes (bs : List Byte)
  /-- a 7-bit CRC in its cell (R102, R103) -/
  | crc (c : Byte)
  /-- an address (R170) or a timestamp (R217) -/
  | word (w : Word)
  /-- a command transaction's response and value (R140) -/
  | response (r : Resp) (value : Option Word)
  deriving DecidableEq, Repr

/-- One request of the host, waiting for the block to be idle (R210, R249; log entry 13). -/
inductive Request where
  /-- bytes on the wire, with the slot they stand in: the operation they decode to is begun -/
  | wire (slot : Slot) (bytes : List Byte)
  /-- an operation to begin -/
  | start (i : Instr)
  deriving DecidableEq, Repr

/-- The callers' memory (R51, R55): (address, byte) pairs, addresses strictly rising, no pair that holds what an
unlisted address reads as. -/
abbrev Memory := List Host.Cell

/-- What a byte of the callers' memory that nothing has written reads as. DESIGN CHOICE, unsafe: log entry 3. -/
def Memory.unlisted : Byte := 0x00

/-- The canonical form of `Memory`. -/
def Memory.wf : Memory → Bool
  | [] => true
  | [(_, v)] => v != Memory.unlisted
  | (a, v) :: (b, w) :: rest => v != Memory.unlisted && a < b && Memory.wf ((b, w) :: rest)

/-- Why the block stops with a fault. No host call reaches it after reset. -/
inductive Fault where
  /-- R243: a `fold` while `st.table_built` is false. Raised by fold, compute, assemble and every operation that sends a
  frame. Safe: the spec names it. -/
  | tableUnbuilt
  deriving DecidableEq, Repr

/-- Why a request has no meaning. -/
inductive Refusal where
  /-- An operation whose meaning is not written. Raised by `exec`'s arms only. Safe. -/
  | notModelled (mnemonic : String)
  /-- R106, R242 (1): a command index above 63. Raised by assemble and SendCmd. Safe. -/
  | commandIndexOutOfRange
  /-- R215, R242 (2): a buffer shorter than what is moved through it. Raised by the host's read and write and by the
  sector and block operations run alone. Safe. -/
  | bufferTooShort
  /-- R219, R242 (3): the time source answered a field outside its range. Raised by current_timestamp. Safe. -/
  | timestampOutOfRange
  /-- R242 (4), R247: a host call while another is in progress. Raised by the six host calls. Safe. -/
  | callInProgress
  /-- R70, R73, R86: bytes in the command slot that are no frame, or too many or too few for their slot. Raised by
  `step`. Safe: no rule of the block sends or receives them. -/
  | undecodable (e : DecodeError)
  deriving DecidableEq, Repr

/-- The state of the block and of its interface. The fields down to `seq` are the record `st` of R20. -/
structure State where
  session    : Session
  isHc       : Option Bool
  lastOk     : Bool
  table      : CrcTable
  tableBuilt : Bool
  scratch    : Vector Byte 512
  cs         : ChipSelect
  clock      : Clock
  iter       : Nat
  polls      : Nat
  k          : Nat
  cause      : Option AbortCause
  seq        : Seq
  /-- the transfer trace (R126), oldest first -/
  trace      : List Event
  /-- the callers' buffers (R55) -/
  mem        : Memory
  /-- what the last call returned (R18) -/
  result     : Result
  /-- the open parameters (R11) -/
  params     : Params
  /-- the model's own: answers of the environment not yet given, first one first (log entry 2) -/
  env        : List Answer
  /-- the model's own: answers of the time source not yet given (log entry 17) -/
  clockAnswers : List Calendar
  /-- the model's own: requests of the host not yet begun (log entry 13) -/
  requests   : List Request
  /-- the model's own: number of the next free value (log entry 6) -/
  free       : Nat
  deriving DecidableEq, Repr

/-- The parameters the reset state holds. DESIGN CHOICE, unsafe: log entry 4. -/
def Params.reset : Params := { nWake := 100, nResp := 8, nToken := 16, nBusy := 16 }

/-- The machine right after reset (R34, R260): the table is built. `scratch` and the three counters, which the spec leaves
unspecified, are zero (DESIGN CHOICE, unsafe: log entry 5). -/
def State.reset : State where
  session    := .notInitialized
  isHc       := none
  lastOk     := false
  table      := builtTable
  tableBuilt := true
  scratch    := Vector.replicate 512 0
  cs         := .deasserted
  clock      := .unknown
  iter       := 0
  polls      := 0
  k          := 0
  cause      := none
  seq        := .idle
  trace      := []
  mem        := []
  result     := .nothing
  params     := Params.reset
  env        := []
  clockAnswers := []
  requests   := []
  free       := 0

end Sys2Proof.Machine
end

