-- ==== Sys2Proof/Machine/Flags.lean ====
section
/-! DEFINITION. The values that play the part of flags (10_state R35): the checks of responses, tokens and data
responses, and the codes and classes of failures. -/

namespace Sys2Proof.Machine

/-- OCR bit 31, power-up complete (R78). -/
def ocrPoweredUp (ocr : Word) : Bool := ocr.getLsbD 31
/-- OCR bit 30, capacity: high-capacity addressing (R78). -/
def ocrHighCapacity (ocr : Word) : Bool := ocr.getLsbD 30
/-- OCR bit 20, 3.3 V supported (R78). -/
def ocrSupports3v3 (ocr : Word) : Bool := ocr.getLsbD 20

/-- The data response accepts the block (R81): its low nibble is 0b0101. -/
def dataAccepted (dr : Byte) : Bool := dr &&& 0x0F == 0x05

/-- The bits of R1 as R74 lays them out for the reader; no rule of the block tests one. -/
structure R1Bits where
  parameterError : Bool
  addressError   : Bool
  eraseSequence  : Bool
  commandCrc     : Bool
  illegalCommand : Bool
  eraseReset     : Bool
  idle           : Bool
  deriving DecidableEq, Repr

/-- The layout of R74 (from general knowledge, as the spec marks it: 93 G1). -/
def r1Bits (r1 : Byte) : R1Bits where
  parameterError := r1.getLsbD 6
  addressError   := r1.getLsbD 5
  eraseSequence  := r1.getLsbD 4
  commandCrc     := r1.getLsbD 3
  illegalCommand := r1.getLsbD 2
  eraseReset     := r1.getLsbD 1
  idle           := r1.getLsbD 0

/-- The command index of a transaction (R83). -/
def Tx.index : Tx → Nat
  | .init .goIdle => 0
  | .init .ifCond => 8
  | .init .ocrVoltage => 58
  | .init .appOpCond => 55
  | .init .opCond => 41
  | .init .ocrPower => 58
  | .io .readOne => 17
  | .io .readMany => 18
  | .io .stopRead => 12
  | .io .writeOne => 24
  | .io .appErase => 55
  | .io .eraseCount => 23
  | .io .writeMany => 25

/-- The response shape of a transaction (R83): R7 for CMD8, R3 for CMD58, else R1. -/
def Tx.shape : Tx → Shape
  | .init .ifCond | .init .ocrVoltage | .init .ocrPower => .r5
  | .init .goIdle | .init .appOpCond | .init .opCond | .io _ => .r1

/-- Require the whole R1 byte to be `want` (R75), a timeout being RESP_TIMEOUT. -/
def requireR1 (want : Byte) (c : AbortCause) : Resp → Option AbortCause
  | .timeout => some .respTimeout
  | .byte b => if b = want then none else some c

/-- Require a bit of the OCR, the R1 byte not being compared (R155, R158). -/
def requireOcr (bit : Word → Bool) (c : AbortCause) (value : Option Word) : Resp → Option AbortCause
  | .timeout => some .respTimeout
  | .byte _ => if bit (value.getD 0) then none else some c

/-- The check each step makes of its response: the cause to abort with, or none (R75, R153 to R158, R173 to R186).
The value is there whenever the shape has one and a byte came (R140). -/
def Tx.check (tx : Tx) (resp : Resp) (value : Option Word) : Option AbortCause :=
  match tx with
  | .init .goIdle => requireR1 0x01 .cmd0NotIdle resp
  | .init .ifCond =>
    match requireR1 0x01 .cmd8BadR1 resp with
    | some c => some c
    | none => if value.getD 0 = Config.ifCondEcho then none else some .cmd8BadEcho
  | .init .ocrVoltage => requireOcr ocrSupports3v3 .ocrNo3v3 value resp
  | .init .appOpCond => if resp = .byte 0x04 then some .appCmdIllegal else none
  | .init .opCond => none
  | .init .ocrPower => requireOcr ocrPoweredUp .ocrNotPowered value resp
  | .io .readOne | .io .readMany | .io .stopRead | .io .writeOne | .io .writeMany => requireR1 0x00 .cmdBadR1 resp
  | .io .appErase | .io .eraseCount => none

/-- The code of a cause in the table of R230; NONE is 0. -/
def causeCode : Option AbortCause → Nat
  | none => 0
  | some .transport => 1
  | some .clockRejected => 2
  | some .respTimeout => 3
  | some .cmd0NotIdle => 4
  | some .cmd8BadR1 => 5
  | some .cmd8BadEcho => 6
  | some .ocrNo3v3 => 7
  | some .appCmdIllegal => 8
  | some .initTimeout => 9
  | some .ocrNotPowered => 10
  | some .cmdBadR1 => 11
  | some .badToken => 12
  | some .tokenTimeout => 13
  | some .dataRejected => 14
  | some .busyTimeout => 15

/-- The code of a configuration rejection (R230). -/
def rejectionCode : Rejection → Nat
  | .badDrive => 16
  | .zeroCount => 17
  | .outOfRange => 18

/-- The class of an abort cause (R230 to R233). -/
def causeClass : AbortCause → FailureClass
  | .transport => .transport
  | .clockRejected => .configuration
  | .respTimeout | .cmd0NotIdle | .cmd8BadR1 | .cmd8BadEcho | .ocrNo3v3 | .appCmdIllegal | .initTimeout | .ocrNotPowered
  | .cmdBadR1 | .badToken | .tokenTimeout | .dataRejected | .busyTimeout => .protocol

/-- The class of a rejection (R233). -/
def rejectionClass : Rejection → FailureClass
  | .badDrive | .zeroCount | .outOfRange => .configuration

end Sys2Proof.Machine
end

