-- ==== Sys2Proof/Machine/Memory.lean ====
section
/-! DEFINITION. The callers' memory (20_memory R55, R58): reading and writing bytes, in canonical form. -/

namespace Sys2Proof.Machine.Memory

/-- The byte at an address. -/
def read : Memory → Nat → Byte
  | [], _ => unlisted
  | (k, v) :: rest, a => if a = k then v else read rest a

/-- A list headed by (a, b), which is left out when `b` is what an unlisted address reads as. -/
def enter (a : Nat) (b : Byte) (rest : Memory) : Memory := if b = unlisted then rest else (a, b) :: rest

/-- Write one byte, keeping the canonical form. -/
def write : Memory → Nat → Byte → Memory
  | [], a, b => enter a b []
  | (k, v) :: rest, a, b =>
    if a < k then enter a b ((k, v) :: rest)
    else if a = k then enter a b rest
    else (k, v) :: write rest a b

/-- The `n` bytes from address `a`. -/
def readBytes (m : Memory) (a n : Nat) : List Byte := (List.range n).map fun i => read m (a + i)

/-- Write the bytes from address `a` on. -/
def writeBytes (m : Memory) (a : Nat) : List Byte → Memory
  | [] => m
  | b :: bs => writeBytes (write m a b) (a + 1) bs

end Sys2Proof.Machine.Memory
end

