-- ==== Sys2Proof/Machine/Ops.lean ====
section
/-! DEFINITION. The shared operations: the environment's answers, the transport primitives, the operations that can
abort, the abort path and the end of an operation. -/

namespace Sys2Proof.Machine

/-! ### Answers -/

/-- Exactly `n` bytes out of the bytes listed (R50: a read is answered with exactly the requested number of bytes):
missing ones are free values of answer `c`, further ones are dropped (log entry 2). -/
def fitBytes (n c : Nat) (bs : List Byte) : List Byte :=
  bs.take n ++ (List.range (n - bs.length)).map (Config.cardByte c)

/-- The environment's next answer to a call that reads `n` bytes: `none` is FAIL. The first listed one, or, past the
end of the list, a free one (R50, log entry 2). -/
def State.nextAnswer (n : Nat) (s : State) : Option (List Byte) × State :=
  match s.env with
  | .fail :: rest => (none, { s with env := rest, free := s.free + 1 })
  | .ok bs :: rest => (some (fitBytes n s.free bs), { s with env := rest, free := s.free + 1 })
  | [] => (if Config.transportOk s.free then some (fitBytes n s.free []) else none, { s with free := s.free + 1 })

/-- Record an event (R126). -/
def State.record (e : Event) (s : State) : State := { s with trace := s.trace ++ [e] }

/-! ### Transport primitives (R121 to R125) -/

/-- `st.cs` when a transfer of this policy begins (R125). -/
def csBefore (pol : Policy) (cs : ChipSelect) : ChipSelect :=
  match pol with
  | .assert => .asserted
  | .none | .deassert => cs

/-- `st.cs` when a transfer of this policy has ended: unknown after a failure (R125). -/
def csAfter (pol : Policy) (ok : Bool) (cs : ChipSelect) : ChipSelect :=
  match ok, pol with
  | false, _ => .unknown
  | true, .deassert => .deasserted
  | true, .none | true, .assert => cs

/-- The pattern of R121 to R123, which a transfer of no bytes follows too (log entry 20): chip-select before, the answer,
the event, chip-select after. The scratch buffer, which stages the data, holds any value afterwards (R28, log entry 6). -/
def State.exchange (n : Nat) (pol : Policy) (ev : Option (List Byte) → Event) (s : State) : Option (List Byte) × State :=
  let r := ({ s with cs := csBefore pol s.cs } : State).nextAnswer n
  let s' := r.2.record (ev r.1)
  (r.1, { s' with cs := csAfter pol r.1.isSome s'.cs, scratch := Config.scratchAfter s.free })

/-- `XferWrite(bytes, pol)` (R121): whether the transport answered OK. -/
def xferWrite (bytes : List Byte) (pol : Policy) (s : State) : Bool × State :=
  let r := s.exchange 0 pol fun a => .write bytes pol a.isSome
  (r.1.isSome, r.2)

/-- `XferRead(n, pol)` (R122): the bytes, or `none` for FAIL. -/
def xferRead (n : Nat) (pol : Policy) (s : State) : Option (List Byte) × State := s.exchange n pol (.read n pol)

/-- `XferReadWrite(out, pol)` (R123). -/
def xferReadWrite (out : List Byte) (pol : Policy) (s : State) : Option (List Byte) × State :=
  s.exchange out.length pol (.readWrite out pol)

/-- `XferSetClock(rate)` (R124): the rate is recorded on OK, unknown on FAIL; no bytes, no chip-select. The scratch buffer
keeps its value, the model's choice (log entry 6). -/
def xferSetClock (rate : Rate) (s : State) : Bool × State :=
  let r := s.nextAnswer 0
  let ok := r.1.isSome
  (ok, ({ r.2 with clock := if ok then .at rate else .unknown } : State).record (.setClock rate ok))

/-! ### Operations that can abort -/

/-- Why an operation does not go on: an abort (R230), a fault (R243), a refusal (R242). -/
inductive Stop where
  | abort (c : AbortCause)
  | fault (f : Fault)
  | refuse (r : Refusal)
  deriving DecidableEq, Repr

/-- An operation of the pseudocode: it changes the state and returns a value, or it stops, with the state it leaves. -/
abbrev Op (α : Type) := EStateM Stop State α

/-- `raise Abort(c)` (R16). -/
def raise {α : Type} (c : AbortCause) : Op α := fun s => .error (.abort c) s

/-- `raise Refuse(r)` (R16). -/
def refuse {α : Type} (r : Refusal) : Op α := fun s => .error (.refuse r) s

/-- `if not ok: raise Abort(c)`. -/
def require (ok : Bool) (c : AbortCause) : Op Unit := fun s => if ok then .ok () s else .error (.abort c) s

/-- Abort when there is a cause to. -/
def abortOn : Option AbortCause → Op Unit
  | none => pure ()
  | some c => raise c

/-- `XferWrite!(bytes, pol)` (R16). -/
def writeOrAbort (bytes : List Byte) (pol : Policy) : Op Unit := fun s =>
  match xferWrite bytes pol s with
  | (true, s') => .ok () s'
  | (false, s') => .error (.abort .transport) s'

/-- `XferRead!(n, pol)` (R16). -/
def readOrAbort (n : Nat) (pol : Policy) : Op (List Byte) := fun s =>
  match xferRead n pol s with
  | (some bs, s') => .ok bs s'
  | (none, s') => .error (.abort .transport) s'

/-- `XferRead!(1, pol)[0]`. -/
def readByteOrAbort (pol : Policy) : Op Byte := do
  let bs ← readOrAbort 1 pol
  pure (bs.headD 0)

/-- `if XferSetClock(rate) = FAIL: raise Abort(CLOCK_REJECTED)` (R151, R159). -/
def clockOrAbort (rate : Rate) : Op Unit := fun s =>
  match xferSetClock rate s with
  | (true, s') => .ok () s'
  | (false, s') => .error (.abort .clockRejected) s'

/-- A state update inside an operation. -/
def update (f : State → State) : Op Unit := fun s => .ok () (f s)

/-- Release (R145): one 0xFF byte, then chip-select deasserted. -/
def release : Op Unit := writeOrAbort [0xFF] .deassert

/-! ### The end of an operation -/

/-- Outside the operation that uses it a counter holds any value (R31, log entry 6). -/
def State.retireCounters (s : State) : State :=
  { s with iter := Config.deadCounter s.free 0, polls := Config.deadCounter s.free 1, k := Config.deadCounter s.free 2,
           free := s.free + 1 }

/-- The same for `st.polls` alone, at the end of a poll loop. -/
def State.retirePolls (s : State) : State := { s with polls := Config.deadCounter s.free 1, free := s.free + 1 }

/-- An operation ends with OK (R162, R172): `last_ok` true, `seq` IDLE. -/
def State.settleOk (s : State) : State := { s.retireCounters with lastOk := true, seq := .idle }

/-- `st.session` after an abort (R238): an initialization, a transport failure or a failed cleanup leave
NOT_INITIALIZED; any other cause leaves it. Whether an initialization is aborted is read from `st.session`, which is
INITIALIZING exactly while one runs (R23, log entry 8). -/
def sessionAfterAbort (c : AbortCause) (cleanupOk : Bool) (session : Session) : Session :=
  if session = .initializing ∨ c = .transport ∨ cleanupOk = false then .notInitialized else session

/-- The abort path after the cause is recorded (R236 to R239): one cleanup transfer, the session effect, `last_ok`
false, `seq` IDLE. A failed cleanup is not repeated and the cause stays. -/
def State.abortTail (c : AbortCause) (s : State) : State :=
  let r := xferWrite [0xFF] .deassert s
  { r.2.retireCounters with session := sessionAfterAbort c r.1 r.2.session, lastOk := false, seq := .idle }

/-- Taking an abort, the block's one exception entry (R236). -/
def State.abort (c : AbortCause) (s : State) : State := ({ s with cause := some c } : State).abortTail c

/-- Run the body of an operation to its end: `true` and R162/R172's OK, or, after an abort, `false` and the state of
the abort path. -/
def settled (body : Op Unit) : Op Bool := fun s =>
  match body s with
  | .ok _ s' => .ok true s'.settleOk
  | .error (.abort c) s' => .ok false (s'.abort c)
  | .error e s' => .error e s'

/-- Record what a call returns (R18). -/
def State.returning (r : Result) (s : State) : State := { s with result := r }

/-- The result of an operation that ends with OK or FAILED (R18). -/
def okOrFailed (ok : Bool) : Result := if ok then .ok else .failed

/-- An operation as an instruction of its own: its value becomes the result; an abort takes the abort path and returns
FAILED (log entry 18). -/
def runAlone {α : Type} (op : Op α) (ret : α → Result) (s : State) : Host.Outcome State Fault Refusal :=
  match op s with
  | .ok a s' => .next (s'.returning (ret a))
  | .error (.abort c) s' => .next ((s'.abort c).returning .failed)
  | .error (.fault f) _ => .fault f
  | .error (.refuse r) _ => .refused r

end Sys2Proof.Machine
end

