-- ==== Sys2Proof/Machine/Operands.lean ====
section
/-! DEFINITION. Operand forms: buffers, card addresses, frames and tokens. -/

namespace Sys2Proof.Machine

/-- The byte of a block token (R80). -/
def tokenByte : BlockToken → Byte
  | .single => 0xFE
  | .multi => 0xFC

/-- `MemRead(buf, off, n)` (R55). -/
def State.memRead (buf : Buffer) (off n : Nat) (s : State) : List Byte := s.mem.readBytes (buf.base + off) n

/-- `MemWrite(buf, off, n, v)` (R55), `n` being the number of bytes given. -/
def State.memWrite (buf : Buffer) (off : Nat) (v : List Byte) (s : State) : State :=
  { s with mem := s.mem.writeBytes (buf.base + off) v }

/-- After a failed read every byte of the call's buffer, as far as the buffer goes, is a free value (R192, 93 U4; log
entry 7). -/
def State.scrub (buf : Buffer) (count : Word) (s : State) : State :=
  let n := min buf.len (count.toNat * Config.sectorSize)
  { s with mem := s.mem.writeBytes buf.base ((List.range n).map (Config.bufferByte s.free)), free := s.free + 1 }

/-- The address of a sector in the given addressing mode, modulo 2^32 (R170). -/
def sectorAddress (isHc : Bool) (sector : Word) : Word := if isHc then sector else sector * 512

/-- The addressing mode (R24): `st.is_hc`, and any value while the field holds none (93 U2; log entry 26). -/
def State.addressing (s : State) : Bool := s.isHc.getD Config.unsetAddressing

/-- A read of the addressing mode. -/
def addressingMode : Op Bool := fun s => .ok s.addressing s

/-- `address_for(sector)` (R170). -/
def addressFor (sector : Word) : Op Word := do
  let hc ← addressingMode
  pure (sectorAddress hc sector)

/-- The range check of R215 (b): whether a start sector lies in the supported range. -/
def inRange (isHc : Bool) (sector : Word) : Bool := isHc || sector ≤ Config.maxScSector

/-- `fold(crc, byte)` (R102), with the fault of R243. -/
def fold (crc byte : Byte) : Op Byte := fun s =>
  if s.tableBuilt then .ok (foldWith s.table crc byte) s else .error (.fault .tableUnbuilt) s

/-- `compute(bytes)` (R103): folds from 0. -/
def compute (bytes : List Byte) : Op Byte := bytes.foldlM fold 0

/-- `assemble(index, arg)` (R105, R106). -/
def assemble (index : Nat) (arg : Word) : Op (List Byte) :=
  if 63 < index then refuse .commandIndexOutOfRange
  else do
    let crc ← compute (frameHead index arg)
    pure (frameHead index arg ++ [frameByte5 crc])

end Sys2Proof.Machine
end

