-- ==== Sys2Proof/Machine/Framer.lean ====
section
/-! DEFINITION. The rows of the CRC-7 table engine and the command framer (40_crc7_framer R100 to R107), and reset
(70_reset R260). -/

namespace Sys2Proof.Machine

/-- `build_table()` (R100). -/
def State.buildTable (s : State) : State := { s with table := builtTable, tableBuilt := true }

/-- build_table (R100). -/
def execBuildTable (s : State) : Host.Outcome State Fault Refusal := .next (s.buildTable.returning .done)

/-- fold (R102, R243). -/
def execFold (crc byte : Byte) (s : State) : Host.Outcome State Fault Refusal := runAlone (fold crc byte) .crc s

/-- compute (R103). -/
def execCompute (bytes : List Byte) (s : State) : Host.Outcome State Fault Refusal := runAlone (compute bytes) .crc s

/-- assemble (R105, R106). -/
def execAssemble (index : Nat) (arg : Word) (s : State) : Host.Outcome State Fault Refusal :=
  runAlone (assemble index arg) .bytes s

/-- Reset of the block (R260, R34): every field of `st` at its reset value, the table built, no transport call. What is
not the block's own stays: the parameters, the callers' buffers, the answers and requests to come, the trace, and the
number of the next free value (log entry 15). -/
def State.resetFrom (s : State) : State :=
  { State.reset with
    trace := s.trace, mem := s.mem, params := s.params, env := s.env, clockAnswers := s.clockAnswers,
    requests := s.requests, free := s.free }

/-- reset (R260). -/
def execReset (s : State) : Host.Outcome State Fault Refusal := .next (s.resetFrom.returning .done)

end Sys2Proof.Machine
end

