-- ==== Sys2Proof/Machine/Session.lean ====
section
/-! DEFINITION. The card session's shared primitives and the initialization state machine (42_session_init R140 to R164),
and the rows of the opcode table that are these operations run alone. -/

namespace Sys2Proof.Machine

/-! ### Polls and the command transaction -/

/-- The loop of `PollResponse` with `left` reads left in the budget (R141). -/
def pollResponseLoop : Nat → Op Resp
  | 0 => pure .timeout
  | left + 1 => do
    let b ← readByteOrAbort .none
    update fun s => { s with polls := s.polls + 1 }
    if b = 0xFF then pollResponseLoop left else pure (.byte b)

/-- `PollResponse()` (R141). -/
def pollResponse : Op Resp := do
  update fun s => { s with polls := 0 }
  let s ← get
  let r ← pollResponseLoop s.params.nResp
  update State.retirePolls
  pure r

/-- The loop of `PollToken` (R143). -/
def pollTokenLoop : Nat → Op Unit
  | 0 => raise .tokenTimeout
  | left + 1 => do
    let b ← readByteOrAbort .none
    update fun s => { s with polls := s.polls + 1 }
    if b = 0xFE then pure () else if b = 0xFF then pollTokenLoop left else raise .badToken

/-- `PollToken()` (R143). -/
def pollToken : Op Unit := do
  update fun s => { s with polls := 0 }
  let s ← get
  pollTokenLoop s.params.nToken
  update State.retirePolls

/-- The loop of `BusyWait` (R144). -/
def busyWaitLoop : Nat → Op Unit
  | 0 => raise .busyTimeout
  | left + 1 => do
    let b ← readByteOrAbort .none
    update fun s => { s with polls := s.polls + 1 }
    if b = 0xFF then pure () else busyWaitLoop left

/-- `BusyWait()` (R144). -/
def busyWait : Op Unit := do
  update fun s => { s with polls := 0 }
  let s ← get
  busyWaitLoop s.params.nBusy
  update State.retirePolls

/-- What `SendCmd` returns (R140). -/
structure Reply where
  resp  : Resp
  value : Option Word
  deriving DecidableEq, Repr

/-- The response part of a command transaction: the poll, and for a 5-byte response the four trailing bytes, read
before anything is compared and only when a byte was found (R140, R142). -/
def receiveReply (shape : Shape) : Op Reply := do
  let resp ← pollResponse
  match shape, resp with
  | .r5, .byte _ => do
    let p ← readOrAbort 4 .none
    pure ⟨resp, some (be32OfBytes p)⟩
  | .r5, .timeout | .r1, _ => pure ⟨resp, none⟩

/-- `SendCmd(idx, arg, shape)` (R140). -/
def sendCmd (index : Nat) (arg : Word) (shape : Shape) : Op Reply := do
  let f ← assemble index arg
  writeOrAbort f .assert
  receiveReply shape

/-- The response of a transaction received and checked. -/
def receiveChecked (tx : Tx) : Op Reply := do
  let r ← receiveReply tx.shape
  abortOn (tx.check r.resp r.value)
  pure r

/-- A command transaction and the check its step makes of the response (R75). -/
def transact (tx : Tx) (arg : Word) : Op Reply := do
  let r ← sendCmd tx.index arg tx.shape
  abortOn (tx.check r.resp r.value)
  pure r

/-! ### Initialization -/

/-- Step 1 (R151, R152): slow clock, then the wake bytes with chip-select left as it is. -/
def initStep1 : Op Unit := do
  clockOrAbort .slow
  let s ← get
  writeOrAbort (List.replicate s.params.nWake 0xFF) .none

/-- Step 2 (R153), CMD0. -/
def initStep2 : Op Unit := do
  let _ ← transact (.init .goIdle) 0
  release

/-- Step 3 (R154), CMD8. -/
def initStep3 : Op Unit := do
  let _ ← transact (.init .ifCond) Config.ifCondArg
  release

/-- Step 4 (R155), the first CMD58. -/
def initStep4 : Op Unit := do
  let _ ← transact (.init .ocrVoltage) 0
  release

/-- CMD55 in the loop of step 5, with its release (R156). -/
def appOpCond : Op Reply := do
  let r ← transact (.init .appOpCond) 0
  release
  pure r

/-- ACMD41 in the loop of step 5, with its release (R156). -/
def opCond : Op Reply := do
  let r ← transact (.init .opCond) Config.hcsArg
  release
  pure r

/-- The loop of step 5 with `left` iterations left (R156, R157). `Delay()` is nothing (R157). -/
def opCondLoop : Nat → Op Unit
  | 0 => raise .initTimeout
  | left + 1 => do
    update fun s => { s with iter := s.iter + 1 }
    let _ ← appOpCond
    let r ← opCond
    if r.resp = .byte 0x00 then pure () else opCondLoop left

/-- Step 5 (R156). -/
def initStep5 : Op Unit := do
  update fun s => { s with iter := 0 }
  opCondLoop Config.nInitIter

/-- Record the addressing mode from OCR bit 30 (R158). -/
def recordCapacity (r : Reply) : Op Unit := update fun s => { s with isHc := some (ocrHighCapacity (r.value.getD 0)) }

/-- Step 6 (R158), the second CMD58. -/
def initStep6 : Op Unit := do
  let r ← transact (.init .ocrPower) 0
  recordCapacity r
  release

/-- Step 7 (R159), the fast clock. -/
def initStep7 : Op Unit := clockOrAbort .fast

/-- Step 8 (R160). -/
def initStep8 : Op Unit := update fun s => { s with session := .ready }

/-- The whole sequence, entered at step 1 whatever the session was (R150). -/
def initBody : Op Unit := do
  update fun s => { s with session := .initializing }
  initStep1
  initStep2
  initStep3
  initStep4
  initStep5
  initStep6
  initStep7
  initStep8

/-- `initialize()` of the card session (R150 to R162). -/
def sessionInitialize : Op Bool := settled initBody

/-- `EnsureReady()` (43_session_io R171). -/
def ensureReady : Op Bool := do
  let s ← get
  if s.session = .ready then pure true else sessionInitialize

/-! ### The rows of the opcode table -/

/-- SendCmd (R140). -/
def execSendCmd (index : Nat) (arg : Word) (shape : Shape) (s : State) : Host.Outcome State Fault Refusal :=
  runAlone (sendCmd index arg shape) (fun r => .response r.resp r.value) s

/-- PollResponse (R141). -/
def execPollResponse (s : State) : Host.Outcome State Fault Refusal := runAlone pollResponse (fun r => .response r none) s

/-- PollToken (R143). -/
def execPollToken (s : State) : Host.Outcome State Fault Refusal := runAlone pollToken (fun _ => .done) s

/-- BusyWait (R144). -/
def execBusyWait (s : State) : Host.Outcome State Fault Refusal := runAlone busyWait (fun _ => .done) s

/-- Release (R145). -/
def execRelease (s : State) : Host.Outcome State Fault Refusal := runAlone release (fun _ => .done) s

/-- Cleanup (60_exceptions R237): the transfer alone; when it fails there is no second one (R239). -/
def execCleanup (s : State) : Host.Outcome State Fault Refusal :=
  let r := xferWrite [0xFF] .deassert s
  .next (r.2.returning (if r.1 then .ok else .xferFail))

/-- AbortPath (60_exceptions R236 to R239). -/
def execAbortPath (c : AbortCause) (s : State) : Host.Outcome State Fault Refusal :=
  .next ((s.abort c).returning .failed)

/-- session_initialize (R150 to R162). -/
def execSessionInitialize (s : State) : Host.Outcome State Fault Refusal := runAlone sessionInitialize okOrFailed s

/-- EnsureReady (R171). -/
def execEnsureReady (s : State) : Host.Outcome State Fault Refusal := runAlone ensureReady okOrFailed s

end Sys2Proof.Machine
end

