-- ==== Sys2Proof/Machine/SectorIo.lean ====
section
/-! DEFINITION. The card session's sector transfers (43_session_io R170 to R192), and the rows of the opcode table that
are these operations run alone. -/

namespace Sys2Proof.Machine

/-! ### Data blocks -/

/-- `ReceiveBlock(buf, off)` (R179): the start token, the payload into the buffer, two CRC bytes read and discarded. -/
def receiveBlock (buf : Buffer) (off : Nat) : Op Unit := do
  pollToken
  let d ← readOrAbort Config.sectorSize .none
  update (State.memWrite buf off d)
  let _ ← readOrAbort 2 .none

/-- `SendBlock(token, buf, off)` (R183): the token, the payload, the filler CRC FF FF. -/
def sendBlock (token : BlockToken) (buf : Buffer) (off : Nat) : Op Unit := do
  writeOrAbort [tokenByte token] .none
  let s ← get
  writeOrAbort (s.memRead buf off Config.sectorSize) .none
  writeOrAbort [0xFF, 0xFF] .none

/-- `CheckDataResponse()` (R181): one byte, no polling, its low nibble 0b0101. -/
def checkDataResponse : Op Unit := do
  let dr ← readByteOrAbort .none
  require (dataAccepted dr) .dataRejected

/-! ### Reads -/

/-- The steps of `ReadSingle` (R173). -/
def readSingleBody (buf : Buffer) (sector : Word) : Op Unit := do
  let a ← addressFor sector
  let _ ← transact (.io .readOne) a
  receiveBlock buf 0
  release

/-- The data phase of `ReadMulti` (R176) from sector `k` on, `left` sectors left. -/
def receiveBlocks (buf : Buffer) (k : Nat) : Nat → Op Unit
  | 0 => pure ()
  | left + 1 => do
    update fun s => { s with k := k }
    receiveBlock buf (Config.sectorSize * k)
    receiveBlocks buf (k + 1) left

/-- The stop phase of `ReadMulti` (R177): CMD12, busy wait, release. -/
def stopRead : Op Unit := do
  let _ ← transact (.io .stopRead) 0
  busyWait
  release

/-- The steps of `ReadMulti` (R175 to R177). -/
def readMultiBody (buf : Buffer) (sector count : Word) : Op Unit := do
  let a ← addressFor sector
  let _ ← transact (.io .readMany) a
  receiveBlocks buf 0 count.toNat
  stopRead

/-- A read ends: when it failed, the buffer holds any value (R192). -/
def scrubOnFailure (buf : Buffer) (count : Word) (body : Op Bool) : Op Bool := do
  let ok ← body
  if ok then pure true
  else do
    update (State.scrub buf count)
    pure false

/-- `ReadSingle(buf, sector)` with its end (R172, R173). -/
def readSingle (buf : Buffer) (sector : Word) : Op Bool := settled (readSingleBody buf sector)

/-- `ReadMulti(buf, sector, count)` with its end (R172, R175 to R177). -/
def readMulti (buf : Buffer) (sector count : Word) : Op Bool := settled (readMultiBody buf sector count)

/-! ### Writes -/

/-- The steps of `WriteSingle` (R180). -/
def writeSingleBody (buf : Buffer) (sector : Word) : Op Unit := do
  let a ← addressFor sector
  let _ ← transact (.io .writeOne) a
  sendBlock .single buf 0
  checkDataResponse
  busyWait
  release

/-- CMD55 before ACMD23, its response not compared, with its release (R185). -/
def appErase : Op Reply := do
  let r ← transact (.io .appErase) 0
  release
  pure r

/-- ACMD23 with the sector count, its response not compared, with its release (R185). -/
def eraseCount (count : Word) : Op Reply := do
  let r ← transact (.io .eraseCount) count
  release
  pure r

/-- One block of `WriteMulti` (R187). -/
def writeBlock (buf : Buffer) (k : Nat) : Op Unit := do
  sendBlock .multi buf (Config.sectorSize * k)
  checkDataResponse
  busyWait

/-- The data phase of `WriteMulti` (R188) from sector `k` on, `left` sectors left. -/
def writeBlocks (buf : Buffer) (k : Nat) : Nat → Op Unit
  | 0 => pure ()
  | left + 1 => do
    update fun s => { s with k := k }
    writeBlock buf k
    writeBlocks buf (k + 1) left

/-- The stop phase of `WriteMulti` (R189): the token 0xFD, busy wait, release. -/
def stopWrite : Op Unit := do
  writeOrAbort [0xFD] .none
  busyWait
  release

/-- The steps of `WriteMulti` (R185 to R189). -/
def writeMultiBody (buf : Buffer) (sector count : Word) : Op Unit := do
  let _ ← appErase
  let _ ← eraseCount count
  let a ← addressFor sector
  let _ ← transact (.io .writeMany) a
  writeBlocks buf 0 count.toNat
  stopWrite

/-- `WriteSingle(buf, sector)` with its end (R172, R180). -/
def writeSingle (buf : Buffer) (sector : Word) : Op Bool := settled (writeSingleBody buf sector)

/-- `WriteMulti(buf, sector, count)` with its end (R172, R185 to R189). -/
def writeMulti (buf : Buffer) (sector count : Word) : Op Bool := settled (writeMultiBody buf sector count)

/-! ### The rows of the opcode table -/

/-- Run an operation that moves data through a buffer, refused when the buffer is too short for it (R55, R242 (2)). -/
def runWithBuffer {α : Type} (fits : Bool) (op : Op α) (ret : α → Result) (s : State) :
    Host.Outcome State Fault Refusal :=
  if fits then runAlone op ret s else .refused .bufferTooShort

/-- address_for (R170). It is run in every session state: log entry 24. -/
def execAddressFor (sector : Word) (s : State) : Host.Outcome State Fault Refusal := runAlone (addressFor sector) .word s

/-- ReceiveBlock (R179). -/
def execReceiveBlock (buf : Buffer) (off : Nat) (s : State) : Host.Outcome State Fault Refusal :=
  runWithBuffer (buf.holdsSectorAt off) (receiveBlock buf off) (fun _ => .done) s

/-- CheckDataResponse (R181). -/
def execCheckDataResponse (s : State) : Host.Outcome State Fault Refusal := runAlone checkDataResponse (fun _ => .done) s

/-- SendBlock (R183). -/
def execSendBlock (token : BlockToken) (buf : Buffer) (off : Nat) (s : State) : Host.Outcome State Fault Refusal :=
  runWithBuffer (buf.holdsSectorAt off) (sendBlock token buf off) (fun _ => .done) s

/-- ReadSingle (R173). Run alone it makes no ready check: log entry 24. -/
def execReadSingle (buf : Buffer) (sector : Word) (s : State) : Host.Outcome State Fault Refusal :=
  runWithBuffer (buf.holds 1) (scrubOnFailure buf 1 (readSingle buf sector)) okOrFailed s

/-- ReadMulti (R175 to R178). Run alone it makes no ready check: log entry 24. -/
def execReadMulti (buf : Buffer) (sector count : Word) (s : State) : Host.Outcome State Fault Refusal :=
  runWithBuffer (buf.holds count) (scrubOnFailure buf count (readMulti buf sector count)) okOrFailed s

/-- WriteSingle (R180). Run alone it makes no ready check: log entry 24. -/
def execWriteSingle (buf : Buffer) (sector : Word) (s : State) : Host.Outcome State Fault Refusal :=
  runWithBuffer (buf.holds 1) (writeSingle buf sector) okOrFailed s

/-- WriteMulti (R185 to R190). Run alone it makes no ready check: log entry 24. -/
def execWriteMulti (buf : Buffer) (sector count : Word) (s : State) : Host.Outcome State Fault Refusal :=
  runWithBuffer (buf.holds count) (writeMulti buf sector count) okOrFailed s

end Sys2Proof.Machine
end

