-- ==== Sys2Proof/Machine/Glue.lean ====
section
/-! DEFINITION. The block-device interface adapter: the six host calls (44_block_device R210 to R221). -/

namespace Sys2Proof.Machine

/-- A host call begins only when none is in progress (R210, R242 (4), R247). -/
def whenIdle (s : State) (call : Host.Outcome State Fault Refusal) : Host.Outcome State Fault Refusal :=
  if s.seq = .idle then call else .refused .callInProgress

/-- The outcome of `CheckParams` (R215 (a)). -/
inductive ParamCheck where
  | pass
  | reject (r : Rejection)
  | bufferTooShort
  deriving DecidableEq, Repr

/-- `CheckParams(drive, buf, count)` (R215 (a)): drive, then count, then the caller's obligation on the buffer. -/
def checkParams (drive : Nat) (buf : Buffer) (count : Word) : ParamCheck :=
  if drive ≠ 0 then .reject .badDrive
  else if count = 0 then .reject .zeroCount
  else if buf.holds count then .pass
  else .bufferTooShort

/-- The sector operation a host call runs: the multi-sector one unless the count is 1 (R213, R214). -/
def Transfer.ofCall (dir : Direction) (buf : Buffer) (sector count : Word) : Transfer :=
  { dir := dir, multi := count != 1, buf := buf, sector := sector, count := count }

/-- The sector operation of a call: one sector or several, read or write (R213, R214). -/
def transferOp (t : Transfer) : Op Bool :=
  match t.dir with
  | .read => if t.multi then readMulti t.buf t.sector t.count else readSingle t.buf t.sector
  | .write => if t.multi then writeMulti t.buf t.sector t.count else writeSingle t.buf t.sector

/-- `CheckRange(sector)` and the dispatch (R213, R215 (b)). -/
def rangedTransfer (t : Transfer) : Op Result := do
  let hc ← addressingMode
  if inRange hc t.sector then do
    let ok ← transferOp t
    pure (okOrFailed ok)
  else pure (.rejected .outOfRange)

/-- What a call that returns FAILED leaves of the caller's buffer: any value after a read, the buffer itself after a write,
which only reads it (R192, R214). -/
def State.afterFailure (t : Transfer) (s : State) : State :=
  match t.dir with
  | .read => s.scrub t.buf t.count
  | .write => s

/-- A sector call after its parameter checks: the ready check, the range check, the transfer (R213, R214). -/
def sectorCall (t : Transfer) : Op Result := do
  let ready ← ensureReady
  let r ← if ready then rangedTransfer t else pure .failed
  if r = .ok then pure () else update (State.afterFailure t)
  pure r

/-- A sector call with its parameter checks (R213 to R215). A rejection changes no state of the block (R215); the buffer
is the caller's (R37), and a read that returns FAILED leaves it unspecified (R192). -/
def checkedSectorCall (drive : Nat) (t : Transfer) (s : State) : Host.Outcome State Fault Refusal :=
  match checkParams drive t.buf t.count with
  | .reject r => .next ((s.afterFailure t).returning (.rejected r))
  | .bufferTooShort => .refused .bufferTooShort
  | .pass => runAlone (sectorCall t) id s

/-- The time source's next answer (R217, log entry 17). -/
def State.nextCalendar (s : State) : Calendar × State :=
  match s.clockAnswers with
  | c :: rest => (c, { s with clockAnswers := rest })
  | [] =>
    let f := Config.calendarField s.free
    ({ year := f 0, month := f 1, day := f 2, hour := f 3, minute := f 4, second := f 5 }, { s with free := s.free + 1 })

/-- The ranges of R218. -/
def Calendar.inRange (c : Calendar) : Bool :=
  (1980 ≤ c.year && c.year ≤ 2107) && (1 ≤ c.month && c.month ≤ 12) && (1 ≤ c.day && c.day ≤ 31) && c.hour ≤ 23
    && c.minute ≤ 59 && c.second ≤ 59

/-- The 32-bit directory-entry timestamp (R217, R218). -/
def Calendar.pack (c : Calendar) : Word :=
  (BitVec.ofNat 32 (c.year - 1980) <<< 25) ||| (BitVec.ofNat 32 c.month <<< 21) ||| (BitVec.ofNat 32 c.day <<< 16)
    ||| (BitVec.ofNat 32 c.hour <<< 11) ||| (BitVec.ofNat 32 c.minute <<< 5) ||| (BitVec.ofNat 32 c.second >>> 1)

/-! ### The rows of the opcode table -/

/-- status (R211). With no transfer made the scratch buffer keeps its value, here and in every other operation that makes
none: log entry 6. -/
def execHostStatus (drive : Nat) (s : State) : Host.Outcome State Fault Refusal :=
  whenIdle s (.next (s.returning (if drive = 0 ∧ s.session = .ready then .ok else .notReady)))

/-- initialize (R212). -/
def execHostInitialize (drive : Nat) (s : State) : Host.Outcome State Fault Refusal :=
  whenIdle s
    (if drive ≠ 0 then .next (s.returning (.rejected .badDrive)) else runAlone sessionInitialize okOrFailed s)

/-- read (R213). -/
def execHostRead (drive : Nat) (buf : Buffer) (sector count : Word) (s : State) : Host.Outcome State Fault Refusal :=
  whenIdle s (checkedSectorCall drive (.ofCall .read buf sector count) s)

/-- write (R214). -/
def execHostWrite (drive : Nat) (buf : Buffer) (sector count : Word) (s : State) : Host.Outcome State Fault Refusal :=
  whenIdle s (checkedSectorCall drive (.ofCall .write buf sector count) s)

/-- sync (R216). -/
def execHostSync (drive : Nat) (s : State) : Host.Outcome State Fault Refusal :=
  whenIdle s (.next (s.returning (if drive = 0 then .ok else .rejected .badDrive)))

/-- current_timestamp (R217 to R219). -/
def execHostTimestamp (s : State) : Host.Outcome State Fault Refusal :=
  whenIdle s
    (if s.nextCalendar.1.inRange then .next (s.nextCalendar.2.returning (.word s.nextCalendar.1.pack))
     else .refused .timestampOutOfRange)

end Sys2Proof.Machine
end

