-- ==== Sys2Proof/Machine/Transport.lean ====
section
/-! DEFINITION. The rows of the transport adapter (41_transport_adapter R120 to R127). Run alone, a primitive returns
its answer; it raises no abort itself (R121). -/

namespace Sys2Proof.Machine

/-- The result of a primitive that answers bytes (R122, R123). -/
def bytesOrFail : Option (List Byte) → Result
  | some bs => .bytes bs
  | none => .xferFail

/-- The result of a primitive that answers OK or FAIL (R121, R124). -/
def okOrFail (ok : Bool) : Result := if ok then .ok else .xferFail

/-- XferWrite (R121). -/
def execXferWrite (bytes : List Byte) (pol : Policy) (s : State) : Host.Outcome State Fault Refusal :=
  .next ((xferWrite bytes pol s).2.returning (okOrFail (xferWrite bytes pol s).1))

/-- XferRead (R122). -/
def execXferRead (n : Nat) (pol : Policy) (s : State) : Host.Outcome State Fault Refusal :=
  .next ((xferRead n pol s).2.returning (bytesOrFail (xferRead n pol s).1))

/-- XferReadWrite (R123). -/
def execXferReadWrite (out : List Byte) (pol : Policy) (s : State) : Host.Outcome State Fault Refusal :=
  .next ((xferReadWrite out pol s).2.returning (bytesOrFail (xferReadWrite out pol s).1))

/-- XferSetClock (R124). -/
def execXferSetClock (rate : Rate) (s : State) : Host.Outcome State Fault Refusal :=
  .next ((xferSetClock rate s).2.returning (okOrFail (xferSetClock rate s).1))

end Sys2Proof.Machine
end

