-- ==== Sys2Proof/Machine/Wire.lean ====
section
/-! DEFINITION. The rows of the wire: command frames, tokens, data response and responses (30_encoding R70 to R86). A
row means what its rule makes the block do with that unit (log entries 9 and 10): a frame is sent and its response
received and checked; a token is sent or received; a response is received, its bytes being the environment's next
answers. -/

namespace Sys2Proof.Machine

/-- The transaction the sequencer stands in, if it stands in one. -/
def Seq.tx : Seq → Option Tx
  | .bringUp _ (.tx x _) => some (.init x)
  | .transfer _ (.tx x _) | .sector _ (.tx x _) => some (.io x)
  | _ => none

/-- Whether the sequencer is about to send a start token (R183). -/
def Seq.sendsToken : Seq → Bool
  | .transfer _ (.data .sendToken) | .sector _ (.data .sendToken) | .alone _ (.data .sendToken) => true
  | _ => false

/-- The environment's next answers are these. -/
def State.deliver (answers : List Answer) (s : State) : State := { s with env := answers ++ s.env }

/-! ### Command frames -/

/-- CMD0 (R153): sent, R1 required to be 0x01, released. -/
def execCmd0 (s : State) : Host.Outcome State Fault Refusal := runAlone initStep2 (fun _ => .done) s

/-- CMD8 (R154): sent, R1 required to be 0x01 and the echo 426, released. -/
def execCmd8 (s : State) : Host.Outcome State Fault Refusal := runAlone initStep3 (fun _ => .done) s

/-- CMD12 (R177): sent, R1 required to be 0x00, busy wait, released. -/
def execCmd12 (s : State) : Host.Outcome State Fault Refusal := runAlone stopRead (fun _ => .done) s

/-- CMD17 (R173), its command phase: sent, R1 required to be 0x00. -/
def execCmd17 (arg : Word) (s : State) : Host.Outcome State Fault Refusal :=
  runAlone (transact (.io .readOne) arg) (fun r => .response r.resp r.value) s

/-- CMD18 (R175). -/
def execCmd18 (arg : Word) (s : State) : Host.Outcome State Fault Refusal :=
  runAlone (transact (.io .readMany) arg) (fun r => .response r.resp r.value) s

/-- CMD24 (R180), its command phase. -/
def execCmd24 (arg : Word) (s : State) : Host.Outcome State Fault Refusal :=
  runAlone (transact (.io .writeOne) arg) (fun r => .response r.resp r.value) s

/-- CMD25 (R186). -/
def execCmd25 (arg : Word) (s : State) : Host.Outcome State Fault Refusal :=
  runAlone (transact (.io .writeMany) arg) (fun r => .response r.resp r.value) s

/-- CMD55: in the pre-erase its response is not compared (R185); otherwise R1 0x04 aborts (R156). Released. -/
def execCmd55 (s : State) : Host.Outcome State Fault Refusal :=
  runAlone (if s.seq.tx = some (.io .appErase) then appErase else appOpCond) (fun r => .response r.resp r.value) s

/-- CMD58: at initialization step 6 bit 31 is required and bit 30 recorded (R158); otherwise bit 20 is required
(R155). Released. -/
def execCmd58 (s : State) : Host.Outcome State Fault Refusal :=
  runAlone (if s.seq.tx = some (.init .ocrPower) then initStep6 else initStep4) (fun _ => .done) s

/-- ACMD23 (R185): sent with the sector count, its response not compared, released. -/
def execAcmd23 (arg : Word) (s : State) : Host.Outcome State Fault Refusal :=
  runAlone (eraseCount arg) (fun r => .response r.resp r.value) s

/-- ACMD41 (R156): sent, released; the loop compares its response. -/
def execAcmd41 (s : State) : Host.Outcome State Fault Refusal :=
  runAlone opCond (fun r => .response r.resp r.value) s

/-! ### Tokens -/

/-- TOKEN_START_BLOCK: sent where the sequencer sends a start token (R183), otherwise received by the token poll (R143). -/
def execTokenStartBlock (s : State) : Host.Outcome State Fault Refusal :=
  if s.seq.sendsToken then runAlone (writeOrAbort [0xFE] .none) (fun _ => .done) s
  else runAlone pollToken (fun _ => .done) (s.deliver [.ok [0xFE]])

/-- TOKEN_START_MULTI_WRITE (R187): sent. -/
def execTokenStartMultiWrite (s : State) : Host.Outcome State Fault Refusal :=
  let r := xferWrite [0xFC] .none s
  .next (if r.1 then r.2.returning .done else (r.2.abort .transport).returning .failed)

/-- TOKEN_STOP_TRAN (R189): sent, busy wait, released. -/
def execTokenStopTran (s : State) : Host.Outcome State Fault Refusal := runAlone stopWrite (fun _ => .done) s

/-! ### Responses -/

/-- DATA_RESPONSE_ACCEPTED (R181): received by the data-response check. -/
def execDataResponseAccepted (upper : BitVec 4) (s : State) : Host.Outcome State Fault Refusal :=
  runAlone checkDataResponse (fun _ => .done) (s.deliver [.ok [upper ++ 0b0101#4]])

/-- R1 (R74, R79): received by the response poll. -/
def execR1 (b : Byte) (s : State) : Host.Outcome State Fault Refusal :=
  runAlone pollResponse (fun r => .response r none) (s.deliver [.ok [b]])

/-- R3 (R76), CMD58's response: received and checked as the step it stands in does (R155; R158 at step 6). -/
def execR3 (b : Byte) (ocr : Word) (s : State) : Host.Outcome State Fault Refusal :=
  runAlone
    (if s.seq.tx = some (.init .ocrPower) then do
      let r ← receiveChecked (.init .ocrPower)
      recordCapacity r
      pure r
    else receiveChecked (.init .ocrVoltage))
    (fun r => .response r.resp r.value) (s.deliver [.ok [b], .ok (wordBytes ocr)])

/-- R7 (R77), CMD8's response: received, R1 required to be 0x01 and the echo 426 (R154). -/
def execR7 (b : Byte) (echo : Word) (s : State) : Host.Outcome State Fault Refusal :=
  runAlone (receiveChecked (.init .ifCond)) (fun r => .response r.resp r.value) (s.deliver [.ok [b], .ok (wordBytes echo)])

/-! ### Bytes that are no unit of their slot -/

/-- Bytes arriving at a poll, one a read, up to the first that is not idle (R79); what would follow it is dropped (log entry
9). -/
def arriving (bytes : List Byte) : List Answer :=
  (bytes.takeWhile (· == 0xFF) ++ (bytes.dropWhile (· == 0xFF)).take 1).map fun b => .ok [b]

/-- The shape of the response to a command index: R7 for CMD8 and R3 for CMD58, else R1 (R83). -/
def shapeOfIndex (index : Nat) : Shape := if index = 8 ∨ index = 58 then .r5 else .r1

/-- What the block does with bytes the decoder refuses: the operation that meets them, and the answers they are. No received
byte is invalid (R87): it goes to the rule that reads its slot, where it is idle or a failure of that step. A frame the
session does not send is one the framer makes (R86): it is sent as a bare transaction. Other bytes are no frame (R70,
R73, R86), and nothing is done with them (log entries 9 and 11). -/
def operationFor (bytes : List Byte) : DecodeError → Option (Instr × List Answer)
  | .notAToken => some (.pollToken, arriving bytes)
  | .notAccepted => some (.checkDataResponse, [.ok bytes])
  | .busIdle => some (.pollResponse, arriving bytes)
  | .commandNotSent index | .badArgument index =>
    some (.sendCmd index.toNat (be32OfBytes ((bytes.drop 1).take 4)) (shapeOfIndex index.toNat), [])
  | .badLength _ | .badStartBits | .badStopBit | .badCrc => none

end Sys2Proof.Machine
end

