-- ==== Sys2Proof/Machine/Dispatch.lean ====
section
/-! DEFINITION. The dispatch: one arm per operation, each a call of its meaning. -/

namespace Sys2Proof.Machine

/-- The effect of one operation of spec/opcode_table.json. -/
def exec (i : Instr) (s : State) : Host.Outcome State Fault Refusal :=
  match i with
  | .cmd0 => Sys2Proof.Machine.execCmd0 s
  | .cmd8 => Sys2Proof.Machine.execCmd8 s
  | .cmd12 => Sys2Proof.Machine.execCmd12 s
  | .cmd17 arg => Sys2Proof.Machine.execCmd17 arg s
  | .cmd18 arg => Sys2Proof.Machine.execCmd18 arg s
  | .cmd24 arg => Sys2Proof.Machine.execCmd24 arg s
  | .cmd25 arg => Sys2Proof.Machine.execCmd25 arg s
  | .cmd55 => Sys2Proof.Machine.execCmd55 s
  | .cmd58 => Sys2Proof.Machine.execCmd58 s
  | .acmd23 arg => Sys2Proof.Machine.execAcmd23 arg s
  | .acmd41 => Sys2Proof.Machine.execAcmd41 s
  | .tokenStartBlock => Sys2Proof.Machine.execTokenStartBlock s
  | .tokenStartMultiWrite => Sys2Proof.Machine.execTokenStartMultiWrite s
  | .tokenStopTran => Sys2Proof.Machine.execTokenStopTran s
  | .dataResponseAccepted upper => Sys2Proof.Machine.execDataResponseAccepted upper s
  | .r1 b => Sys2Proof.Machine.execR1 b s
  | .r3 b ocr => Sys2Proof.Machine.execR3 b ocr s
  | .r7 b echo => Sys2Proof.Machine.execR7 b echo s
  | .hostStatus drive => Sys2Proof.Machine.execHostStatus drive s
  | .hostInitialize drive => Sys2Proof.Machine.execHostInitialize drive s
  | .hostRead drive buf sector count => Sys2Proof.Machine.execHostRead drive buf sector count s
  | .hostWrite drive buf sector count => Sys2Proof.Machine.execHostWrite drive buf sector count s
  | .hostSync drive => Sys2Proof.Machine.execHostSync drive s
  | .hostTimestamp => Sys2Proof.Machine.execHostTimestamp s
  | .buildTable => Sys2Proof.Machine.execBuildTable s
  | .fold crc byte => Sys2Proof.Machine.execFold crc byte s
  | .compute bytes => Sys2Proof.Machine.execCompute bytes s
  | .assemble index arg => Sys2Proof.Machine.execAssemble index arg s
  | .xferWrite bytes pol => Sys2Proof.Machine.execXferWrite bytes pol s
  | .xferRead n pol => Sys2Proof.Machine.execXferRead n pol s
  | .xferReadWrite out pol => Sys2Proof.Machine.execXferReadWrite out pol s
  | .xferSetClock rate => Sys2Proof.Machine.execXferSetClock rate s
  | .sendCmd index arg shape => Sys2Proof.Machine.execSendCmd index arg shape s
  | .pollResponse => Sys2Proof.Machine.execPollResponse s
  | .pollToken => Sys2Proof.Machine.execPollToken s
  | .busyWait => Sys2Proof.Machine.execBusyWait s
  | .release => Sys2Proof.Machine.execRelease s
  | .cleanup => Sys2Proof.Machine.execCleanup s
  | .sessionInitialize => Sys2Proof.Machine.execSessionInitialize s
  | .addressFor sector => Sys2Proof.Machine.execAddressFor sector s
  | .ensureReady => Sys2Proof.Machine.execEnsureReady s
  | .receiveBlock buf off => Sys2Proof.Machine.execReceiveBlock buf off s
  | .checkDataResponse => Sys2Proof.Machine.execCheckDataResponse s
  | .sendBlock token buf off => Sys2Proof.Machine.execSendBlock token buf off s
  | .readSingle buf sector => Sys2Proof.Machine.execReadSingle buf sector s
  | .readMulti buf sector count => Sys2Proof.Machine.execReadMulti buf sector count s
  | .writeSingle buf sector => Sys2Proof.Machine.execWriteSingle buf sector s
  | .writeMulti buf sector count => Sys2Proof.Machine.execWriteMulti buf sector count s
  | .abortPath c => Sys2Proof.Machine.execAbortPath c s
  | .resetBlock => Sys2Proof.Machine.execReset s

end Sys2Proof.Machine
end

