-- ==== Sys2Proof/Machine/Sequencer.lean ====
section
/-! DEFINITION. The sequencer (10_state R21, 00_scope R8): an operation run one transport call or one internal computation
a step. The position names the next action; each action is the one its rule lists, over the same transport primitives,
checks, abort path and endings as the operations run whole. Which internal computations are a step of their own the spec
does not say; the model's choice is log entry 1. -/

namespace Sys2Proof.Machine

/-- The sequencer goes to a position. -/
def State.goto (seq : Seq) (s : State) : State := { s with seq := seq }

/-- An abort inside an operation: the cause is recorded and the abort path, at position `cleanup c`, comes next (R236). -/
def State.raised (cleanup : AbortCause → Seq) (c : AbortCause) (s : State) : State :=
  ({ s with cause := some c } : State).goto (cleanup c)

/-- The host call returns. -/
def State.returnCall (r : Result) (s : State) : State := (s.goto .idle).returning r

/-- A poll loop's counter starts (R141, R143, R144). -/
def State.startPoll (s : State) : State := { s with polls := 0 }

/-- One read of a poll loop is counted. -/
def State.countPoll (s : State) : State := { s with polls := s.polls + 1 }

/-- A transport write as a step: on to `k`, or the abort path. -/
def stepWrite (cleanup : AbortCause → Seq) (bytes : List Byte) (pol : Policy) (k : State → State) (s : State) : State :=
  match xferWrite bytes pol s with
  | (true, s') => k s'
  | (false, s') => s'.raised cleanup .transport

/-- A transport read as a step: on to `k`, or the abort path. -/
def stepRead (cleanup : AbortCause → Seq) (n : Nat) (pol : Policy) (k : List Byte → State → State) (s : State) : State :=
  match xferRead n pol s with
  | (some bs, s') => k bs s'
  | (none, s') => s'.raised cleanup .transport

/-- A clock selection as a step: on to `k`, or the abort path. -/
def stepClock (cleanup : AbortCause → Seq) (rate : Rate) (k : State → State) (s : State) : State :=
  match xferSetClock rate s with
  | (true, s') => k s'
  | (false, s') => s'.raised cleanup .clockRejected

/-! ### A command transaction -/

/-- What the steps of a command transaction depend on: its frame's index, its response's shape, the check made of the
response, whether a release follows at once (R145), whether it records the addressing mode (R158). -/
structure Exchange where
  index    : Nat
  shape    : Shape
  check    : Resp → Option Word → Option AbortCause
  releases : Bool
  capacity : Bool

/-- Whether a release follows the transaction at once (R145): all of initialization and the pre-erase. -/
def Tx.releases : Tx → Bool
  | .init _ | .io .appErase | .io .eraseCount => true
  | .io .readOne | .io .readMany | .io .stopRead | .io .writeOne | .io .writeMany => false

/-- The exchange of a transaction of the session. -/
def Tx.exchange (tx : Tx) : Exchange :=
  { index := tx.index, shape := tx.shape, check := tx.check, releases := tx.releases, capacity := tx = .init .ocrPower }

/-- A transaction whose response is returned as it is (R140). -/
def Exchange.bare (index : Nat) (shape : Shape) : Exchange :=
  { index := index, shape := shape, check := fun _ _ => none, releases := false, capacity := false }

/-- What a passed check records: the addressing mode, at initialization step 6 (R158). -/
def State.noted (x : Exchange) (value : Option Word) (s : State) : State :=
  if x.capacity then { s with isHc := some (ocrHighCapacity (value.getD 0)) } else s

/-- The next action of a transaction: `here` is the position of its steps, `cleanup` that of the abort path, `after` what
follows it. The frame is assembled in the step that writes it, and a byte is tested in the step that reads it; the check
of the whole response is a step of its own (log entry 1). -/
def tickTx (x : Exchange) (here : TxStep → Seq) (cleanup : AbortCause → Seq)
    (after : Resp → Option Word → State → State) (p : TxStep) (s : State) : Host.Outcome State Fault Refusal :=
  match p with
  | .frame arg =>
    if s.tableBuilt then
      .next (stepWrite cleanup (frameWith s.table x.index arg) .assert (fun s => s.startPoll.goto (here .poll)) s)
    else .fault .tableUnbuilt
  | .poll =>
    .next (if s.polls < s.params.nResp then
      stepRead cleanup 1 .none (fun bs s =>
        if bs.headD 0 = 0xFF then s.countPoll.goto (here .poll)
        else match x.shape with
          | .r5 => s.retirePolls.goto (here (.trailing (bs.headD 0)))
          | .r1 => s.retirePolls.goto (here (.judge (.byte (bs.headD 0)) none))) s
    else s.retirePolls.goto (here (.judge .timeout none)))
  | .trailing b =>
    .next (stepRead cleanup 4 .none (fun bs => State.goto (here (.judge (.byte b) (some (be32OfBytes bs))))) s)
  | .judge resp value =>
    .next (match x.check resp value with
      | some c => s.raised cleanup c
      | none =>
        if x.releases then (s.noted x value).goto (here (.releaseTx resp)) else after resp value (s.noted x value))
  | .releaseTx resp => .next (stepWrite cleanup [0xFF] .deassert (after resp none) s)

/-! ### Data phases -/

/-- The next transport call of a data phase or of its end, over a sector at offset `off` of `buf`: `here` is the position of
its steps, `cleanup` that of the abort path, `after` what follows a step that has passed. The payload is stored in the
step that reads it (log entry 1). -/
def tickData (token : BlockToken) (buf : Buffer) (off : Nat) (here : DataStep → Seq) (cleanup : AbortCause → Seq)
    (after : DataStep → State → State) (d : DataStep) (s : State) : State :=
  match d with
  | .startToken =>
    if s.polls < s.params.nToken then
      stepRead cleanup 1 .none (fun bs s =>
        if bs.headD 0 = 0xFE then after d s.retirePolls
        else if bs.headD 0 = 0xFF then s.countPoll.goto (here d)
        else s.countPoll.raised cleanup .badToken) s
    else s.raised cleanup .tokenTimeout
  | .payload => stepRead cleanup Config.sectorSize .none (fun bytes s => after d (s.memWrite buf off bytes)) s
  | .readCrc => stepRead cleanup 2 .none (fun _ => after d) s
  | .sendToken => stepWrite cleanup [tokenByte token] .none (after d) s
  | .sendData => stepWrite cleanup (s.memRead buf off Config.sectorSize) .none (after d) s
  | .sendCrc => stepWrite cleanup [0xFF, 0xFF] .none (after d) s
  | .dataResponse =>
    stepRead cleanup 1 .none (fun bs s =>
      if dataAccepted (bs.headD 0) then after d s else s.raised cleanup .dataRejected) s
  | .stopToken => stepWrite cleanup [0xFD] .none (after d) s
  | .busy _ =>
    if s.polls < s.params.nBusy then
      stepRead cleanup 1 .none (fun bs s =>
        if bs.headD 0 = 0xFF then after d s.retirePolls else s.countPoll.goto (here d)) s
    else s.raised cleanup .busyTimeout
  | .finalRelease => stepWrite cleanup [0xFF] .deassert (after d) s

/-! ### Initialization -/

/-- What follows a transaction of initialization (R153 to R159). -/
def State.afterInitTx (next : Option Transfer) (x : InitTx) (resp : Resp) (s : State) : State :=
  match x with
  | .goIdle => s.goto (.bringUp next (.tx .ifCond (.frame Config.ifCondArg)))
  | .ifCond => s.goto (.bringUp next (.tx .ocrVoltage (.frame 0)))
  | .ocrVoltage => ({ s with iter := 0 } : State).goto (.bringUp next .opCondRound)
  | .appOpCond => s.goto (.bringUp next (.tx .opCond (.frame Config.hcsArg)))
  | .opCond =>
    if resp = .byte 0x00 then s.goto (.bringUp next (.tx .ocrPower (.frame 0)))
    else s.goto (.bringUp next .opCondRound)
  | .ocrPower => s.goto (.bringUp next .fastClock)

/-- An initialization has aborted: alone it returns FAILED; run by a ready check it ends the sector call (R171). -/
def State.failBringUp (next : Option Transfer) (s : State) : State :=
  match next with
  | none => s.returnCall .failed
  | some t => (s.afterFailure t).returnCall .failed

/-- The next action of `initialize()` (R150 to R162). -/
def tickInit (next : Option Transfer) (p : InitStep) (s : State) : Host.Outcome State Fault Refusal :=
  let at_ := Seq.bringUp next
  match p with
  | .slowClock => .next (stepClock (fun c => at_ (.cleanup c)) .slow (State.goto (at_ .wake)) s)
  | .wake =>
    .next (stepWrite (fun c => at_ (.cleanup c)) (List.replicate s.params.nWake 0xFF) .none
      (State.goto (at_ (.tx .goIdle (.frame 0)))) s)
  | .tx x q =>
    tickTx (Tx.init x).exchange (fun q => at_ (.tx x q)) (fun c => at_ (.cleanup c))
      (fun resp _ => State.afterInitTx next x resp) q s
  | .opCondRound =>
    .next (if s.iter < Config.nInitIter then
      ({ s with iter := s.iter + 1 } : State).goto (at_ (.tx .appOpCond (.frame 0)))
    else s.raised (fun c => at_ (.cleanup c)) .initTimeout)
  | .fastClock => .next (stepClock (fun c => at_ (.cleanup c)) .fast (State.goto (at_ .enterReady)) s)
  | .enterReady =>
    let s' := ({ s with session := .ready } : State).settleOk
    .next (match next with
      | none => s'.returnCall .ok
      | some t => s'.goto (.transfer t .range))
  | .cleanup c => .next ((s.abortTail c).failBringUp next)

/-! ### Sector operations -/

/-- The first step of a sector operation (R173, R175, R180, R185). -/
def Transfer.entry (t : Transfer) : IoStep :=
  match t.dir with
  | .read => .address (if t.multi then .readMany else .readOne)
  | .write => if t.multi then .tx .appErase (.frame 0) else .address .writeOne

/-- The block with index `j` begins (R176, R188). A single-sector operation is here with index 0: its `k`, which 93 U3
leaves open, is the model's choice (log entry 6). -/
def State.enterBlock (t : Transfer) (here : IoStep → Seq) (j : Nat) (s : State) : State :=
  match t.dir with
  | .read => ({ s with k := j } : State).startPoll.goto (here (.data .startToken))
  | .write => ({ s with k := j } : State).goto (here (.data .sendToken))

/-- The data phase begins: the loop over the blocks, or one block (log entry 6). -/
def State.enterData (t : Transfer) (here : IoStep → Seq) (s : State) : State :=
  if t.multi then s.goto (here (.nextBlock 0)) else s.enterBlock t here 0

/-- A block has ended. -/
def State.afterBlock (t : Transfer) (here : IoStep → Seq) (s : State) : State :=
  if t.multi then s.goto (here (.nextBlock (s.k + 1))) else s.goto (here (.data .finalRelease))

/-- What follows a transaction of a sector operation (R173 to R189). -/
def State.afterIoTx (t : Transfer) (here : IoStep → Seq) (x : IoTx) (s : State) : State :=
  match x with
  | .readOne | .readMany | .writeOne | .writeMany => s.enterData t here
  | .stopRead => s.startPoll.goto (here (.data (.busy .stopCommand)))
  | .appErase => s.goto (here (.tx .eraseCount (.frame t.count)))
  | .eraseCount => s.goto (here (.address .writeMany))

/-- What follows a transport call of the data phase (R173 to R189). -/
def State.afterIoData (t : Transfer) (here : IoStep → Seq) (d : DataStep) (s : State) : State :=
  match d with
  | .startToken => s.goto (here (.data .payload))
  | .payload => s.goto (here (.data .readCrc))
  | .readCrc => s.afterBlock t here
  | .sendToken => s.goto (here (.data .sendData))
  | .sendData => s.goto (here (.data .sendCrc))
  | .sendCrc => s.goto (here (.data .dataResponse))
  | .dataResponse => s.startPoll.goto (here (.data (.busy .block)))
  | .stopToken => s.startPoll.goto (here (.data (.busy .stopToken)))
  | .busy .block => s.afterBlock t here
  | .busy .stopCommand | .busy .stopToken => s.goto (here (.data .finalRelease))
  | .finalRelease => s.settleOk.returnCall .ok

/-- The next action of a sector operation (R173 to R190), its steps standing at `here`; `range` is a host call's (R215). -/
def tickIo (t : Transfer) (here : IoStep → Seq) (p : IoStep) (s : State) : Host.Outcome State Fault Refusal :=
  let cleanup := fun c => here (.cleanup c)
  match p with
  | .range =>
    .next (if inRange s.addressing t.sector then s.goto (here t.entry)
      else (s.afterFailure t).returnCall (.rejected .outOfRange))
  | .address x => .next (s.goto (here (.tx x (.frame (sectorAddress s.addressing t.sector)))))
  | .tx x q =>
    tickTx (Tx.io x).exchange (fun q => here (.tx x q)) cleanup (fun _ _ => State.afterIoTx t here x) q s
  | .nextBlock j =>
    .next (if j < t.count.toNat then s.enterBlock t here j
      else match t.dir with
        | .read => s.goto (here (.tx .stopRead (.frame 0)))
        | .write => s.goto (here (.data .stopToken)))
  | .data d =>
    .next (tickData (if t.multi then .multi else .single) t.buf (Config.sectorSize * s.k) (fun d => here (.data d))
      cleanup (State.afterIoData t here) d s)
  | .cleanup c => .next (((s.abortTail c).afterFailure t).returnCall .failed)

/-! ### Wire rows and session primitives run alone -/

/-- The argument of the frame an operation run alone sends (R83). -/
def aloneArg : Instr → Word
  | .cmd8 => Config.ifCondArg
  | .acmd41 => Config.hcsArg
  | .cmd17 arg | .cmd18 arg | .cmd24 arg | .cmd25 arg | .acmd23 arg | .sendCmd _ arg _ => arg
  | _ => 0

/-- The exchange of an operation run alone: the transaction its frame belongs to when no operation is in progress (log
entry 10), the check of a response received, or no check. -/
def aloneExchange : Instr → Exchange
  | .cmd0 => (Tx.init .goIdle).exchange
  | .cmd8 => (Tx.init .ifCond).exchange
  | .cmd12 => (Tx.io .stopRead).exchange
  | .cmd17 _ => (Tx.io .readOne).exchange
  | .cmd18 _ => (Tx.io .readMany).exchange
  | .cmd24 _ => (Tx.io .writeOne).exchange
  | .cmd25 _ => (Tx.io .writeMany).exchange
  | .cmd55 => (Tx.init .appOpCond).exchange
  | .cmd58 => (Tx.init .ocrVoltage).exchange
  | .acmd23 _ => (Tx.io .eraseCount).exchange
  | .acmd41 => (Tx.init .opCond).exchange
  | .r3 _ _ => { (Tx.init .ocrVoltage).exchange with releases := false }
  | .r7 _ _ => { (Tx.init .ifCond).exchange with releases := false }
  | .sendCmd index _ shape => .bare index shape
  | _ => .bare 0 .r1

/-- The token, the buffer and the offset of the block an operation run alone moves. -/
def aloneBlock : Instr → BlockToken × Buffer × Nat
  | .sendBlock token buf off => (token, buf, off)
  | .receiveBlock buf off => (.single, buf, off)
  | _ => (.multi, { base := 0, len := 0 }, 0)

/-- The transport call that follows another in an operation run alone, if one does (R177, R179, R183, R189). -/
def aloneNext : Instr → DataStep → Option DataStep
  | .receiveBlock _ _, .startToken => some .payload
  | .receiveBlock _ _, .payload => some .readCrc
  | .sendBlock _ _ _, .sendToken => some .sendData
  | .sendBlock _ _ _, .sendData => some .sendCrc
  | .tokenStopTran, .stopToken => some (.busy .stopToken)
  | .tokenStopTran, .busy _ | .cmd12, .busy _ => some .finalRelease
  | _, _ => none

/-- What follows the transaction of an operation run alone: the busy wait of CMD12, else its end and its result. -/
def State.afterAloneTx (i : Instr) (resp : Resp) (value : Option Word) (s : State) : State :=
  match i with
  | .cmd12 => s.startPoll.goto (.alone i (.data (.busy .stopCommand)))
  | .cmd0 | .cmd8 | .cmd58 => s.returnCall .done
  | _ => s.returnCall (.response resp value)

/-- What follows a transport call of the data phase of an operation run alone: the next one, a poll with its counter at 0,
or the end. -/
def State.afterAloneData (i : Instr) (d : DataStep) (s : State) : State :=
  match aloneNext i d with
  | some (.busy w) => s.startPoll.goto (.alone i (.data (.busy w)))
  | some d' => s.goto (.alone i (.data d'))
  | none => s.returnCall .done

/-- The next action of a wire row or a session primitive run alone. -/
def tickAlone (i : Instr) (p : AloneStep) (s : State) : Host.Outcome State Fault Refusal :=
  let cleanup := fun c => Seq.alone i (.cleanup c)
  match p with
  | .tx q => tickTx (aloneExchange i) (fun q => .alone i (.tx q)) cleanup (State.afterAloneTx i) q s
  | .data d =>
    let (token, buf, off) := aloneBlock i
    .next (tickData token buf off (fun d => .alone i (.data d)) cleanup (State.afterAloneData i) d s)
  | .cleanup c => .next ((s.abortTail c).returnCall .failed)

/-- The next action of the operation in progress; an idle sequencer has none. -/
def tick (s : State) : Host.Outcome State Fault Refusal :=
  match s.seq with
  | .idle => .next s
  | .bringUp next p => tickInit next p s
  | .transfer t p => tickIo t (.transfer t) p s
  | .sector t p => tickIo t (.sector t) p s
  | .alone i p => tickAlone i p s

/-! ### The beginning of an operation -/

/-- The first step of a sector call that passed its parameter checks: the ready check (R171). -/
def State.enterCall (t : Transfer) (s : State) : State :=
  if s.session = .ready then s.goto (.transfer t .range)
  else ({ s with session := .initializing } : State).goto (.bringUp (some t) .slowClock)

/-- The first step of a host's sector call (R213 to R215). -/
def startSectorCall (drive : Nat) (t : Transfer) (s : State) : Host.Outcome State Fault Refusal :=
  match checkParams drive t.buf t.count with
  | .reject r => .next ((s.afterFailure t).returning (.rejected r))
  | .bufferTooShort => .refused .bufferTooShort
  | .pass => .next (s.enterCall t)

/-- The first step of an initialization (R150). -/
def State.enterInit (s : State) : State :=
  ({ s with session := .initializing } : State).goto (.bringUp none .slowClock)

/-- The first step of `initialize(drive)` (R212). -/
def startInitialize (drive : Nat) (s : State) : Host.Outcome State Fault Refusal :=
  if drive ≠ 0 then .next (s.returning (.rejected .badDrive)) else .next s.enterInit

/-- The first step of a sector operation run alone: the buffer is checked (R242 (2)), the session is not (log entry 24). -/
def startSector (t : Transfer) (s : State) : Host.Outcome State Fault Refusal :=
  if t.buf.holds t.count then .next (s.goto (.sector t t.entry)) else .refused .bufferTooShort

/-- The first step of a block moved alone, to the state given when the buffer holds the block (R242 (2)). -/
def startBlock (buf : Buffer) (off : Nat) (s : State) : Host.Outcome State Fault Refusal :=
  if buf.holdsSectorAt off then .next s else .refused .bufferTooShort

/-- The first step of a poll or a received unit: the counter at 0, the unit's bytes before the other answers. -/
def State.enterPoll (i : Instr) (p : AloneStep) (answers : List Answer) (s : State) : State :=
  (s.deliver answers).startPoll.goto (.alone i p)

end Sys2Proof.Machine
end

