-- ==== Sys2Proof/Machine/Requests.lean ====
section
/-! DEFINITION. The host's requests: how the block takes the next one and begins it (44_block_device R210, 70_reset R261). -/

namespace Sys2Proof.Machine

/-- The beginning of an operation, one internal computation (R8, R21): what makes at most one transport call, or one
internal computation, is done in this step; of every other operation the sequencer takes the first position. -/
def start (i : Instr) (s : State) : Host.Outcome State Fault Refusal :=
  match i with
  | .hostInitialize drive => startInitialize drive s
  | .sessionInitialize => .next s.enterInit
  | .ensureReady => if s.session = .ready then .next (s.returning .ok) else .next s.enterInit
  | .hostRead drive buf sector count => startSectorCall drive (.ofCall .read buf sector count) s
  | .hostWrite drive buf sector count => startSectorCall drive (.ofCall .write buf sector count) s
  | .readSingle buf sector => startSector { dir := .read, multi := false, buf := buf, sector := sector, count := 1 } s
  | .readMulti buf sector count =>
    startSector { dir := .read, multi := true, buf := buf, sector := sector, count := count } s
  | .writeSingle buf sector => startSector { dir := .write, multi := false, buf := buf, sector := sector, count := 1 } s
  | .writeMulti buf sector count =>
    startSector { dir := .write, multi := true, buf := buf, sector := sector, count := count } s
  | .cmd0 | .cmd8 | .cmd12 | .cmd17 _ | .cmd18 _ | .cmd24 _ | .cmd25 _ | .cmd55 | .cmd58 | .acmd23 _ | .acmd41 =>
    .next (s.goto (.alone i (.tx (.frame (aloneArg i)))))
  | .sendCmd index _ _ =>
    if 63 < index then .refused .commandIndexOutOfRange else .next (s.goto (.alone i (.tx (.frame (aloneArg i)))))
  | .pollResponse => .next (s.enterPoll i (.tx .poll) [])
  | .r1 b => .next (s.enterPoll i (.tx .poll) [.ok [b]])
  | .r3 b w | .r7 b w => .next (s.enterPoll i (.tx .poll) [.ok [b], .ok (wordBytes w)])
  | .pollToken => .next (s.enterPoll i (.data .startToken) [])
  | .tokenStartBlock => .next (s.enterPoll i (.data .startToken) [.ok [0xFE]])
  | .busyWait => .next (s.enterPoll i (.data (.busy .block)) [])
  | .receiveBlock buf off => startBlock buf off (s.enterPoll i (.data .startToken) [])
  | .sendBlock _ buf off => startBlock buf off (s.goto (.alone i (.data .sendToken)))
  | .tokenStartMultiWrite => .next (s.goto (.alone i (.data .sendToken)))
  | .tokenStopTran => .next (s.goto (.alone i (.data .stopToken)))
  | .checkDataResponse => .next (s.goto (.alone i (.data .dataResponse)))
  | .dataResponseAccepted upper => .next ((s.deliver [.ok [upper ++ 0b0101#4]]).goto (.alone i (.data .dataResponse)))
  | .release => .next (s.goto (.alone i (.data .finalRelease)))
  | .abortPath c => .next (s.raised (fun c => .alone i (.cleanup c)) c)
  | .hostStatus _ | .hostSync _ | .hostTimestamp | .buildTable | .fold _ _ | .compute _ | .assemble _ _ | .xferWrite _ _
  | .xferRead _ _ | .xferReadWrite _ _ | .xferSetClock _ | .cleanup | .addressFor _ | .resetBlock => exec i s

/-- Bytes on the wire taken up: the unit they decode to is begun, or what the block does with bytes that are no unit of
their slot (R86, R87). -/
def startWire (slot : Slot) (bytes : List Byte) (s : State) : Host.Outcome State Fault Refusal :=
  match decode slot bytes with
  | .ok i => start i s
  | .error e =>
    match operationFor bytes e with
    | some (i, answers) => start i (s.deliver answers)
    | none => .refused (.undecodable e)

/-- The request at the head of the queue is taken and begun (log entry 13). -/
def serve (r : Request) (s : State) : Host.Outcome State Fault Refusal :=
  match r with
  | .wire slot bytes => startWire slot bytes s
  | .start i => start i s

/-- An idle block takes the next request; with no request it stays as it is (R249, R261). -/
def serveNext (s : State) : Host.Outcome State Fault Refusal :=
  match s.requests with
  | [] => .next s
  | r :: rest => serve r { s with requests := rest }

end Sys2Proof.Machine
end

