-- ==== Sys2Proof/Machine/Step.lean ====
section
/-! DEFINITION. One step of the block (00_scope R8, 10_state R21), and how an instruction word is given to it. -/

namespace Sys2Proof.Machine

/-- One step: the next request of an idle block, or the next action of the operation in progress. -/
def step (s : State) : Host.Outcome State Fault Refusal := if s.seq = .idle then serveNext s else tick s

/-- The state with an opcode-table word as the next request of an idle block (log entry 13). -/
def State.withFetchWord (s : State) (nbits w : Nat) : State :=
  { s with seq := .idle, requests := .wire .unclassified (tableBytes nbits w) :: s.requests }

end Sys2Proof.Machine
end

