-- ==== Sys2Proof/Safety.lean ====
section
/-! DEFINITION. What claims about the block are stated with: what an outcome answers, the invariant of a run, the
classes of operations, what an operation leaves unchanged. -/

namespace Sys2Proof

/-- The six host calls (R210). -/
def Instr.isHostCall : Instr → Bool
  | .hostStatus _ | .hostInitialize _ | .hostRead _ _ _ _ | .hostWrite _ _ _ _ | .hostSync _ | .hostTimestamp => true
  | _ => false

/-- The host calls that reach the card session (R212 to R214). -/
def Instr.reachesSession : Instr → Bool
  | .hostInitialize _ | .hostRead _ _ _ _ | .hostWrite _ _ _ _ => true
  | _ => false

/-- The operations that make one transport call at most and have no abort path: a step that takes one has ended it (log
entry 1). -/
def Instr.runsInOneStep : Instr → Bool
  | .hostStatus _ | .hostSync _ | .hostTimestamp | .buildTable | .fold _ _ | .compute _ | .assemble _ _ | .addressFor _ => true
  | .xferWrite _ _ | .xferRead _ _ | .xferReadWrite _ _ | .xferSetClock _ | .cleanup | .resetBlock => true
  | .hostInitialize _ | .hostRead _ _ _ _ | .hostWrite _ _ _ _ => false
  | .cmd0 | .cmd8 | .cmd12 | .cmd17 _ | .cmd18 _ | .cmd24 _ | .cmd25 _ | .cmd55 | .cmd58 | .acmd23 _ | .acmd41 => false
  | .tokenStartBlock | .tokenStartMultiWrite | .tokenStopTran | .dataResponseAccepted _ | .r1 _ | .r3 _ _ | .r7 _ _ => false
  | .sendCmd _ _ _ | .pollResponse | .pollToken | .busyWait | .release | .sessionInitialize | .ensureReady => false
  | .receiveBlock _ _ | .checkDataResponse | .sendBlock _ _ _ => false
  | .readSingle _ _ | .readMulti _ _ _ | .writeSingle _ _ | .writeMulti _ _ _ | .abortPath _ => false

/-- The buffer an operation stores payload bytes to: `some (buf, off, n)` for the `n` bytes at offset `off` of `buf`;
`none` for an operation that stores nothing (R55: the block writes the buffer only in `read()`). -/
def Instr.storesTo : Instr → Option (Buffer × Nat × Nat)
  | .hostRead _ buf _ count => some (buf, 0, count.toNat * Config.sectorSize)
  | .receiveBlock buf off => some (buf, off, Config.sectorSize)
  | .readSingle buf _ => some (buf, 0, Config.sectorSize)
  | .readMulti buf _ count => some (buf, 0, count.toNat * Config.sectorSize)
  | _ => none

end Sys2Proof

namespace Sys2Proof.Machine

/-- The outcome is a next state with this property. -/
def Answers (o : Host.Outcome State Fault Refusal) (P : State → Prop) : Prop := ∃ t, o = .next t ∧ P t

/-- Whatever next state the outcome is has this property. -/
def IfNext (o : Host.Outcome State Fault Refusal) (P : State → Prop) : Prop := ∀ t, o = .next t → P t

/-- A host's sector call that passed its parameter checks (R213 to R215). -/
def Transfer.admitted (t : Transfer) : Bool := t.count != 0 && t.buf.holds t.count && t.multi == (t.count != 1)

/-- The steps of initialization that follow the write of `st.is_hc` in step 6 (R158). -/
def InitStep.afterCapacity : InitStep → Bool
  | .tx .ocrPower (.releaseTx _) | .fastClock | .enterReady => true
  | _ => false

/-- The session state and the operands that go with a sequencer position: INITIALIZING exactly during an initialization
(R23), READY during a host's sector transfer (43_session_io R171). -/
def State.seqConsistent (s : State) : Prop :=
  match s.seq with
  | .idle => s.session ≠ .initializing
  | .bringUp next p =>
    s.session = .initializing ∧ (p.afterCapacity = true → s.isHc.isSome = true) ∧
      (∀ t, next = some t → t.admitted = true)
  | .transfer t _ => s.session = .ready ∧ t.admitted = true
  | .sector t _ => s.session ≠ .initializing ∧ t.buf.holds t.count = true
  | .alone _ _ => s.session ≠ .initializing

/-- The invariant of a run: the table is built and is the table of R100, the callers' memory is in canonical form, the
addressing mode is known in a ready period (R24), the sequencer and the session agree. -/
structure State.Inv (s : State) : Prop where
  tableBuilt : s.tableBuilt = true
  table      : s.table = builtTable
  memory     : s.mem.wf = true
  addressing : s.session = .ready → s.isHc.isSome = true
  sequencer  : s.seqConsistent

/-- Whether an address lies in `n` bytes at offset `off` of a buffer. -/
def inStored (a : Nat) (w : Buffer × Nat × Nat) : Prop := w.1.base + w.2.1 ≤ a ∧ a < w.1.base + w.2.1 + w.2.2

/-- The card session's record and everything else but what a transport call touches (the trace, chip-select, the
environment's answers, scratch, the free-value counter) and the result. -/
structure SameButTransfer (s t : State) : Prop where
  session      : t.session = s.session
  isHc         : t.isHc = s.isHc
  lastOk       : t.lastOk = s.lastOk
  table        : t.table = s.table
  tableBuilt   : t.tableBuilt = s.tableBuilt
  clock        : t.clock = s.clock
  iter         : t.iter = s.iter
  k            : t.k = s.k
  cause        : t.cause = s.cause
  seq          : t.seq = s.seq
  mem          : t.mem = s.mem
  params       : t.params = s.params
  clockAnswers : t.clockAnswers = s.clockAnswers
  requests     : t.requests = s.requests

/-- What no host call and no session operation changes: the table, the parameters, the time source's answers, the
requests. -/
structure SameFixed (s t : State) : Prop where
  table        : t.table = s.table
  tableBuilt   : t.tableBuilt = s.tableBuilt
  params       : t.params = s.params
  clockAnswers : t.clockAnswers = s.clockAnswers
  requests     : t.requests = s.requests

/-- The trace has only grown, by `n` events at most (R126). -/
def TraceGrew (n : Nat) (s t : State) : Prop := ∃ es : List Event, t.trace = s.trace ++ es ∧ es.length ≤ n

/-- `m` reads of the idle bus value 0xFF, listed as answers. -/
def idleAnswers (m : Nat) : List Answer := List.replicate m (.ok [0xFF])

/-- `m` recorded single-byte reads of 0xFF. -/
def idleReads (m : Nat) : List Event := List.replicate m (.read 1 .none (some [0xFF]))

/-- The answer OK to a call that reads nothing. -/
def okAnswer : Answer := .ok []

/-- A recorded write that succeeded. -/
def wrote (bytes : List Byte) : Event := .write bytes .none true

/-- The recorded write of a command frame (R127). -/
def frameEvent (index : Nat) (arg : Word) : Event := .write (frameWith builtTable index arg) .assert true

/-- A recorded write that failed. -/
def writeFailed (bytes : List Byte) : Event := .write bytes .none false

/-- A recorded read that failed. -/
def readFailed (n : Nat) : Event := .read n .none none

/-- A recorded single-byte read. -/
def byteRead (b : Byte) : Event := .read 1 .none (some [b])

/-- The recorded release, or cleanup, that succeeded (R145, R237). -/
def releaseEvent : Event := .write [0xFF] .deassert true

/-! ### What a card answers to a command transaction -/

/-- A card's reply to a response poll (R141): the byte `b` after `m` idle reads, or nothing in the whole budget. -/
inductive CardReply where
  | after (m : Nat) (b : Byte)
  | silent
  deriving DecidableEq, Repr

/-- The reply as the answers to the poll's reads. -/
def CardReply.answers (budget : Nat) : CardReply → List Answer
  | .after m b => idleAnswers m ++ [.ok [b]]
  | .silent => idleAnswers budget

/-- The poll's recorded reads. -/
def CardReply.events (budget : Nat) : CardReply → List Event
  | .after m b => idleReads m ++ [byteRead b]
  | .silent => idleReads budget

/-- What the poll returns. -/
def CardReply.resp : CardReply → Resp
  | .after _ b => .byte b
  | .silent => .timeout

/-- The reply comes within the budget and its byte is not the idle value. -/
def CardReply.fits (budget : Nat) : CardReply → Bool
  | .after m b => m < budget && b != 0xFF
  | .silent => true

/-- The four trailing bytes of a 5-byte response, as an answer. -/
def wordAnswer (w : Word) : Answer := .ok (wordBytes w)

/-- The recorded read of the four trailing bytes (R142). -/
def wordRead (w : Word) : Event := .read 4 .none (some (wordBytes w))

/-- Answers to a command transaction with a 1-byte response: the frame write, the poll (R140). -/
def txAnswers (p : Params) (r : CardReply) : List Answer := okAnswer :: r.answers p.nResp

/-- The recorded calls of a command transaction with a 1-byte response. -/
def txEvents (p : Params) (index : Nat) (arg : Word) (r : CardReply) : List Event :=
  frameEvent index arg :: r.events p.nResp

/-- Answers to a command transaction with a 5-byte response. -/
def wideAnswers (m : Nat) (b : Byte) (w : Word) : List Answer := okAnswer :: (idleAnswers m ++ [.ok [b], wordAnswer w])

/-- The recorded calls of a command transaction with a 5-byte response. -/
def wideEvents (index : Nat) (arg : Word) (m : Nat) (b : Byte) (w : Word) : List Event :=
  frameEvent index arg :: (idleReads m ++ [byteRead b, wordRead w])

/-! ### What a card answers to an initialization -/

/-- A card's answers to a whole initialization (R151 to R159): the idle reads before CMD0's and CMD8's response, the
response of the first CMD58, the loop rounds before the last one (CMD55's reply, ACMD41's), the last round (CMD55's
reply, idle reads before ACMD41's 0x00), the response of the second CMD58. -/
structure CardInit where
  goIdle    : Nat
  ifCond    : Nat
  voltageAt : Nat
  voltageR1 : Byte
  voltage   : Word
  rounds    : List (CardReply × CardReply)
  lastApp   : CardReply
  lastOp    : Nat
  powerAt   : Nat
  powerR1   : Byte
  power     : Word
  deriving DecidableEq, Repr

/-- The answers to the calls of one round of the step 5 loop (R156). -/
def roundAnswers (p : Params) (r : CardReply × CardReply) : List Answer :=
  txAnswers p r.1 ++ [okAnswer] ++ txAnswers p r.2 ++ [okAnswer]

/-- The recorded calls of one round of the step 5 loop. -/
def roundEvents (p : Params) (r : CardReply × CardReply) : List Event :=
  txEvents p 55 0 r.1 ++ [releaseEvent] ++ txEvents p 41 0x40000000 r.2 ++ [releaseEvent]

/-- The answers to the calls of steps 1 to 4. -/
def CardInit.headAnswers (p : Params) (c : CardInit) : List Answer :=
  [okAnswer, okAnswer] ++ txAnswers p (.after c.goIdle 0x01) ++ [okAnswer]
    ++ wideAnswers c.ifCond 0x01 0x000001AA ++ [okAnswer]
    ++ wideAnswers c.voltageAt c.voltageR1 c.voltage ++ [okAnswer]

/-- The recorded calls of steps 1 to 4. -/
def CardInit.headEvents (p : Params) (c : CardInit) : List Event :=
  [.setClock .slow true, wrote (List.replicate p.nWake 0xFF)] ++ txEvents p 0 0 (.after c.goIdle 0x01) ++ [releaseEvent]
    ++ wideEvents 8 0x000001AA c.ifCond 0x01 0x000001AA ++ [releaseEvent]
    ++ wideEvents 58 0 c.voltageAt c.voltageR1 c.voltage ++ [releaseEvent]

/-- The answers to the calls of steps 1 to 6. -/
def CardInit.slowAnswers (p : Params) (c : CardInit) : List Answer :=
  c.headAnswers p ++ (c.rounds.map (roundAnswers p)).flatten ++ roundAnswers p (c.lastApp, .after c.lastOp 0x00)
    ++ wideAnswers c.powerAt c.powerR1 c.power ++ [okAnswer]

/-- The recorded calls of steps 1 to 6. -/
def CardInit.slowEvents (p : Params) (c : CardInit) : List Event :=
  c.headEvents p ++ (c.rounds.map (roundEvents p)).flatten ++ roundEvents p (c.lastApp, .after c.lastOp 0x00)
    ++ wideEvents 58 0 c.powerAt c.powerR1 c.power ++ [releaseEvent]

/-- The answers to all calls of the initialization. -/
def CardInit.answers (p : Params) (c : CardInit) : List Answer := c.slowAnswers p ++ [okAnswer]

/-- The recorded calls of the initialization. -/
def CardInit.events (p : Params) (c : CardInit) : List Event := c.slowEvents p ++ [.setClock .fast true]

/-- A round that neither aborts nor ends the loop (R157). -/
def roundGoesOn (p : Params) (r : CardReply × CardReply) : Bool :=
  r.1.fits p.nResp && r.1.resp != .byte 0x04 && r.2.fits p.nResp && r.2.resp != .byte 0x00

/-- Steps 1 to 4 pass. -/
def CardInit.headPasses (p : Params) (c : CardInit) : Bool :=
  c.goIdle < p.nResp && c.ifCond < p.nResp && c.voltageAt < p.nResp && c.voltageR1 != 0xFF && c.voltage.getLsbD 20

/-- The initialization succeeds: every reply within its budget, every check passed, at most 1600 rounds. -/
def CardInit.passes (p : Params) (c : CardInit) : Bool :=
  c.headPasses p && c.rounds.length < 1600 && c.rounds.all (roundGoesOn p) && c.lastApp.fits p.nResp
    && c.lastApp.resp != .byte 0x04 && c.lastOp < p.nResp && c.powerAt < p.nResp && c.powerR1 != 0xFF
    && c.power.getLsbD 31

/-! ### What a card answers to a sector transfer -/

/-- A card's answers to one received block (R179): idle reads before the token, the payload, the two CRC bytes. -/
structure CardBlock where
  wait    : Nat
  payload : List Byte
  crc     : List Byte
  deriving DecidableEq, Repr

/-- The block as answers. -/
def CardBlock.answers (c : CardBlock) : List Answer := idleAnswers c.wait ++ [.ok [0xFE], .ok c.payload, .ok c.crc]

/-- The recorded reads of the block. -/
def CardBlock.events (c : CardBlock) : List Event :=
  idleReads c.wait ++ [byteRead 0xFE, .read 512 .none (some c.payload), .read 2 .none (some c.crc)]

/-- The token within its budget, 512 payload bytes, 2 CRC bytes of any value. -/
def CardBlock.fits (p : Params) (c : CardBlock) : Bool :=
  c.wait < p.nToken && c.payload.length == 512 && c.crc.length == 2

/-- The answers to a busy wait (R144): bytes other than 0xFF, then 0xFF. -/
def busyAnswers (busy : List Byte) : List Answer := busy.map (fun b => .ok [b]) ++ [.ok [0xFF]]

/-- The recorded reads of a busy wait. -/
def busyEvents (busy : List Byte) : List Event := busy.map byteRead ++ [byteRead 0xFF]

/-- The card is busy for less than the budget. -/
def busyFits (p : Params) (busy : List Byte) : Bool := busy.length < p.nBusy && busy.all (· != 0xFF)

/-- A card's answers to one sent block (R181, R187): the data response, the busy bytes. -/
structure CardAccept where
  response : Byte
  busy     : List Byte
  deriving DecidableEq, Repr

/-- The answers to the calls that send a block and wait for the card. -/
def CardAccept.answers (c : CardAccept) : List Answer :=
  [okAnswer, okAnswer, okAnswer, .ok [c.response]] ++ busyAnswers c.busy

/-- The recorded calls that send a block of these bytes and wait for the card. -/
def CardAccept.events (token : Byte) (payload : List Byte) (c : CardAccept) : List Event :=
  [wrote [token], wrote payload, wrote [0xFF, 0xFF], byteRead c.response] ++ busyEvents c.busy

/-- The low nibble says accepted (R81) and the card is busy for less than the budget. -/
def CardAccept.fits (p : Params) (c : CardAccept) : Bool := c.response.extractLsb' 0 4 == 0b0101#4 && busyFits p c.busy

/-- The payloads of a buffer's sectors `k` to `k + n - 1` (R58). -/
def State.sectors (buf : Buffer) (k n : Nat) (s : State) : List (List Byte) :=
  (List.range n).map fun j => s.memRead buf (512 * (k + j)) 512

/-! ### What an operation did -/

/-- The transport calls made, the answers left, chip-select; nothing else changed but what no rule reads. -/
structure Talked (s t : State) (events : List Event) (rest : List Answer) (cs : ChipSelect) : Prop where
  trace : t.trace = s.trace ++ events
  env   : t.env = rest
  cs    : t.cs = cs
  same  : SameButTransfer s t

/-- An operation ended with OK (R162, R172): the calls made, the answers left, chip-select deasserted, idle. -/
structure EndedOk (s t : State) (events : List Event) (rest : List Answer) : Prop where
  result : t.result = .ok
  lastOk : t.lastOk = true
  seq    : t.seq = .idle
  cs     : t.cs = .deasserted
  trace  : t.trace = s.trace ++ events
  env    : t.env = rest
  cause  : t.cause = s.cause
  fixed  : SameFixed s t

/-- What a sector operation leaves of the session (43_session_io: it writes none of these). -/
structure SameSession (s t : State) : Prop where
  session : t.session = s.session
  isHc    : t.isHc = s.isHc
  clock   : t.clock = s.clock

/-- An operation was aborted (R236 to R239): the calls made, then the cleanup answered `ok`; the cause, the session
effect, and nothing else changed. Whether an initialization was aborted is read from the session (log entry 8), so an
operation run alone outside INITIALIZING keeps READY on a protocol violation, as a sector operation does. -/
structure AbortedWith (s t : State) (c : AbortCause) (events : List Event) (ok : Bool) (rest : List Answer) : Prop where
  result  : t.result = .failed
  cause   : t.cause = some c
  lastOk  : t.lastOk = false
  seq     : t.seq = .idle
  cs      : t.cs = if ok then .deasserted else .unknown
  trace   : t.trace = s.trace ++ events ++ [.write [0xFF] .deassert ok]
  env     : t.env = rest
  session : t.session = if s.session = .initializing ∨ c = .transport ∨ ok = false then .notInitialized else s.session
  isHc    : t.isHc = s.isHc
  clock   : t.clock = s.clock
  mem     : t.mem = s.mem
  fixed   : SameFixed s t

/-- An initialization was aborted (R161, R236 to R239): the calls made, then the cleanup answered `ok`; NOT_INITIALIZED. -/
structure InitFailed (s t : State) (c : AbortCause) (events : List Event) (ok : Bool) (rest : List Answer) : Prop where
  result  : t.result = .failed
  session : t.session = .notInitialized
  cause   : t.cause = some c
  lastOk  : t.lastOk = false
  seq     : t.seq = .idle
  cs      : t.cs = if ok then .deasserted else .unknown
  trace   : t.trace = s.trace ++ events ++ [.write [0xFF] .deassert ok]
  env     : t.env = rest
  mem     : t.mem = s.mem
  fixed   : SameFixed s t

/-- A configuration rejection (R215, R233): nothing of the block changed. What the caller's buffer of a read holds is left
open (R192); no other byte of memory changed. -/
structure RejectedWith (s t : State) (i : Instr) (r : Rejection) : Prop where
  result  : t.result = .rejected r
  same    : t = { s with result := t.result, mem := t.mem, free := t.free }
  unread  : i.storesTo = none → t.mem = s.mem
  outside : ∀ w, i.storesTo = some w → ∀ a, ¬ inStored a w → t.mem.read a = s.mem.read a

/-- The answer to the cleanup transfer. -/
def cleanupAnswer (ok : Bool) : Answer := if ok then okAnswer else .fail

/-- The table is built and is R100's. -/
abbrev State.framing (s : State) : Prop := s.tableBuilt = true ∧ s.table = builtTable

/-- The caller's buffer holds these sectors, and no other byte of memory changed. -/
def Received (s t : State) (buf : Buffer) (off : Nat) (payload : List Byte) : Prop :=
  (∀ i (h : i < payload.length), t.mem.read (buf.base + off + i) = payload[i]) ∧
  ∀ a, ¬ (buf.base + off ≤ a ∧ a < buf.base + off + payload.length) → t.mem.read a = s.mem.read a

/-- `n` runs of step from a state. -/
def runSteps (n : Nat) (s : State) : Host.Outcome State Fault Refusal := Host.Core.run Sys2Proof.core n s

end Sys2Proof.Machine
end

