-- ==== Sys2Proof/Certificates/Slice0/Obligations.lean ====
section
/-! DEFINITION. The statements for the provers. Each docstring names the rules of spec/ it is about. A card's answers are
quantified over; what a statement lists as answers comes first in `env`, and what is left of them is `rest`. -/

open Sys2Proof Sys2Proof.Machine

/-! ### Encoding (30_encoding) -/

/-- R70 to R83: every well-formed wire unit decodes, from its own encoding, to itself, with every operand. -/
def Obligations.DecodeOfEncodeIsTheUnit : Prop :=
  ∀ i : Instr, i.wellFormed = true → ∀ slot bytes, encode i = some (slot, bytes) → decode slot bytes = .ok i

/-- R70 to R87: whatever bytes the decoder accepts are the encoding of the unit it answers, which is well-formed, and in a
slot that is given, the encoding is for that slot. Of a word given with no slot, the CRC byte of a frame with an open
argument is not compared (the model's choice, log entry 11): there the first five bytes are the encoding's. -/
def Obligations.EncodeOfDecodeIsTheBytes : Prop :=
  ∀ (slot : Slot) (bytes : List Byte) (i : Instr), decode slot bytes = .ok i →
    i.wellFormed = true ∧ ∃ slot' bytes', encode i = some (slot', bytes') ∧ bytes'.length = bytes.length ∧
      bytes'.take 5 = bytes.take 5 ∧ (slot ≠ .unclassified → slot' = slot ∧ bytes' = bytes) ∧
      ((∀ a, i ≠ .cmd17 a ∧ i ≠ .cmd18 a ∧ i ≠ .cmd24 a ∧ i ≠ .cmd25 a ∧ i ≠ .acmd23 a) → bytes' = bytes)

/-- R70 to R83, words written out from the tables: one of every family. -/
def Obligations.WrittenOutWordsDecode : Prop :=
  decode .command [0x40, 0x00, 0x00, 0x00, 0x00, 0x95] = .ok .cmd0 ∧
  decode .command [0x51, 0x00, 0x00, 0x0A, 0x00, 0xC9] = .ok (.cmd17 2560) ∧
  decode .command [0x69, 0x40, 0x00, 0x00, 0x00, 0x77] = .ok .acmd41 ∧
  decode .token [0xFC] = .ok .tokenStartMultiWrite ∧
  decode .dataResponse [0xE5] = .ok (.dataResponseAccepted 0b1110#4) ∧
  decode .response1 [0x01] = .ok (.r1 0x01) ∧
  decode .response3 [0x00, 0xC0, 0xFF, 0x80, 0x00] = .ok (.r3 0x00 0xC0FF8000) ∧
  decode .response7 [0x01, 0x00, 0x00, 0x01, 0xAA] = .ok (.r7 0x01 426) ∧
  decodeTableWord 48 0x48000001AA87 = some .cmd8

/-- R70, R73: no bit of a frame is ignored. A frame of one of the eleven commands with any one bit inverted is refused.
That the decoder refuses a wrong CRC is the model's choice (log entry 11). -/
def Obligations.OneInvertedBitIsRefused : Prop :=
  ∀ (i : Instr) (bytes : List Byte), encode i = some (.command, bytes) →
    ∀ (j : Nat) (_ : j < bytes.length) (k : Nat), k < 8 →
      ∃ e, decode .command (bytes.set j (bytes[j] ^^^ (1#8 <<< k))) = .error e

/-! ### CRC-7 engine and framer (40_crc7_framer) -/

/-- R100, R101: the table built holds, for every index, the bit-wise CRC-7 of that one byte, a value below 128; nothing
else changes. The scratch buffer is kept: log entry 6. -/
def Obligations.BuildTableHoldsBitwiseCrcs : Prop :=
  ∀ s : State, ∃ t, exec .buildTable s = .next t ∧ t.tableBuilt = true ∧
    (∀ i : Fin 256, t.table[i] = (bitwiseCrc [BitVec.ofNat 8 i.val]).setWidth 8 ∧ t.table[i].toNat < 128) ∧
    t = { s with table := t.table, tableBuilt := true, result := .done }

/-- R102, R101: a fold advances the bit-wise CRC-7 register by the eight bits of one byte. The scratch buffer is kept:
log entry 6. -/
def Obligations.FoldAdvancesOneByte : Prop :=
  ∀ (s : State) (crc byte : Byte), s.framing → crc.toNat < 128 →
    exec (.fold crc byte) s = .next (s.returning (.crc ((bitwiseCrcByte (crc.setWidth 7) byte).setWidth 8)))

/-- R103: the table-driven CRC of any byte sequence is its bit-wise CRC-7. The scratch buffer is kept: log entry 6. -/
def Obligations.ComputeIsBitwiseCrc : Prop :=
  ∀ (s : State) (bytes : List Byte), s.framing →
    exec (.compute bytes) s = .next (s.returning (.crc ((bitwiseCrc bytes).setWidth 8)))

/-- R104: the CRC of `a ++ b` is `b` folded on from the CRC of `a`. -/
def Obligations.ComputeFoldsOn : Prop :=
  ∀ (s : State) (a b : List Byte) (c : Byte), s.framing → exec (.compute a) s = .next (s.returning (.crc c)) →
    exec (.compute (a ++ b)) s = .next (s.returning (.crc (b.foldl (foldWith s.table) c)))

/-- R56, R105: the six bytes of a frame, the argument most significant byte first, the CRC of the first five bytes in
bits 7 to 1 of the last and its bit 0 set. -/
def Obligations.AssembleMakesTheFrame : Prop :=
  ∀ (s : State) (index : Nat) (arg : Word), s.framing → index ≤ 63 →
    let head : List Byte := [0x40 ||| BitVec.ofNat 8 index, arg.extractLsb' 24 8, arg.extractLsb' 16 8,
      arg.extractLsb' 8 8, arg.extractLsb' 0 8]
    exec (.assemble index arg) s = .next (s.returning (.bytes (head ++ [bitwiseCrc head ++ 1#1])))

/-- R106: an index above 63 is refused, by assemble and by SendCmd, before anything is sent. -/
def Obligations.IndexAbove63IsRefused : Prop :=
  ∀ (s : State) (index : Nat) (arg : Word) (shape : Shape), 63 < index →
    exec (.assemble index arg) s = .refused .commandIndexOutOfRange ∧
    exec (.sendCmd index arg shape) s = .refused .commandIndexOutOfRange

/-- R243: a fold while the table is not built faults, and so does what folds before anything else: the CRC of a sequence
that is not empty, the framer, SendCmd and the eleven command frames. -/
def Obligations.UnbuiltTableFaults : Prop :=
  ∀ (s : State) (crc byte : Byte) (bytes : List Byte) (index : Nat) (arg : Word) (shape : Shape),
    s.tableBuilt = false → index ≤ 63 →
    (∀ i : Instr, (i = .cmd0 ∨ i = .cmd8 ∨ i = .cmd12 ∨ i = .cmd17 arg ∨ i = .cmd18 arg ∨ i = .cmd24 arg ∨ i = .cmd25 arg ∨
      i = .cmd55 ∨ i = .cmd58 ∨ i = .acmd23 arg ∨ i = .acmd41) → exec i s = .fault .tableUnbuilt) ∧
    exec (.fold crc byte) s = .fault .tableUnbuilt ∧
    exec (.compute (byte :: bytes)) s = .fault .tableUnbuilt ∧
    exec (.assemble index arg) s = .fault .tableUnbuilt ∧
    exec (.sendCmd index arg shape) s = .fault .tableUnbuilt

/-! ### Transport adapter (41_transport_adapter) -/

/-- R121, R125, R126: a write records its event and returns its answer; chip-select follows the policy, and is unknown
after a failure. A write of no bytes is run too: log entry 20. -/
def Obligations.WriteFollowsItsAnswer : Prop :=
  ∀ (s : State) (bytes : List Byte) (pol : Policy) (bs : List Byte) (rest : List Answer),
    (s.env = .ok bs :: rest → ∃ t, exec (.xferWrite bytes pol) s = .next t ∧ t.result = .ok ∧ t.polls = s.polls ∧
      Talked s t [.write bytes pol true] rest
        (match pol with | .none => s.cs | .assert => .asserted | .deassert => .deasserted)) ∧
    (s.env = .fail :: rest → ∃ t, exec (.xferWrite bytes pol) s = .next t ∧ t.result = .xferFail ∧ t.polls = s.polls ∧
      Talked s t [.write bytes pol false] rest .unknown)

/-- R122, R123, R125, R126, R50: the same for a read and for a simultaneous read and write, which return the bytes
answered: whatever the environment, exactly as many as were asked for. A read of no bytes is run too: log entry 20. -/
def Obligations.ReadsFollowTheirAnswer : Prop :=
  ∀ (s : State) (n : Nat) (out : List Byte) (pol : Policy) (bs : List Byte) (rest : List Answer),
    (s.env = .ok bs :: rest → bs.length = n → ∃ t, exec (.xferRead n pol) s = .next t ∧ t.result = .bytes bs ∧
      t.polls = s.polls ∧ Talked s t [.read n pol (some bs)] rest
        (match pol with | .none => s.cs | .assert => .asserted | .deassert => .deasserted)) ∧
    (s.env = .fail :: rest → ∃ t, exec (.xferRead n pol) s = .next t ∧ t.result = .xferFail ∧ t.polls = s.polls ∧
      Talked s t [.read n pol none] rest .unknown) ∧
    (s.env = .ok bs :: rest → bs.length = out.length → ∃ t, exec (.xferReadWrite out pol) s = .next t ∧
      t.result = .bytes bs ∧ t.polls = s.polls ∧ Talked s t [.readWrite out pol (some bs)] rest
        (match pol with | .none => s.cs | .assert => .asserted | .deassert => .deasserted)) ∧
    (s.env = .fail :: rest → ∃ t, exec (.xferReadWrite out pol) s = .next t ∧ t.result = .xferFail ∧
      t.polls = s.polls ∧ Talked s t [.readWrite out pol none] rest .unknown) ∧
    (∃ t, exec (.xferRead n pol) s = .next t ∧
      ((t.result = .xferFail ∧ t.trace = s.trace ++ [.read n pol none] ∧ t.cs = .unknown) ∨
        ∃ bs : List Byte, bs.length = n ∧ t.result = .bytes bs ∧ t.trace = s.trace ++ [.read n pol (some bs)])) ∧
    (∃ t, exec (.xferReadWrite out pol) s = .next t ∧
      ((t.result = .xferFail ∧ t.trace = s.trace ++ [.readWrite out pol none] ∧ t.cs = .unknown) ∨
        ∃ bs : List Byte, bs.length = out.length ∧ t.result = .bytes bs ∧
          t.trace = s.trace ++ [.readWrite out pol (some bs)]))

/-- R124: a clock selection records the rate on OK and unknown on FAIL, and touches nothing else but the trace. The
scratch buffer is kept: log entry 6. -/
def Obligations.ClockFollowsItsAnswer : Prop :=
  ∀ (s : State) (rate : Rate) (bs : List Byte) (rest : List Answer),
    (s.env = .ok bs :: rest → ∃ t, exec (.xferSetClock rate) s = .next t ∧
      t = { s with clock := .at rate, trace := s.trace ++ [.setClock rate true], env := rest, result := .ok,
                   free := t.free }) ∧
    (s.env = .fail :: rest → ∃ t, exec (.xferSetClock rate) s = .next t ∧
      t = { s with clock := .unknown, trace := s.trace ++ [.setClock rate false], env := rest, result := .xferFail,
                   free := t.free })

/-! ### Session primitives (42_session_init) -/

/-- R141: the response poll returns the first byte other than 0xFF within the budget, or a timeout after the whole
budget of idle reads. It is run alone here: log entry 18. -/
def Obligations.ResponsePollReturnsTheReply : Prop :=
  ∀ (s : State) (r : CardReply) (rest : List Answer), s.env = r.answers s.params.nResp ++ rest →
    r.fits s.params.nResp = true →
    ∃ t, exec .pollResponse s = .next t ∧ t.result = .response r.resp none ∧
      Talked s t (r.events s.params.nResp) rest s.cs

/-- R143: the token poll ends on 0xFE, aborts at once on any other byte that is not 0xFF, and aborts after the budget.
It is run alone here, and its abort keeps the session as a sector operation's does: log entries 8 and 18. -/
def Obligations.TokenPollClassifiesEveryByte : Prop :=
  ∀ (s : State) (m : Nat) (b : Byte) (ok : Bool) (rest : List Answer),
    (m < s.params.nToken → s.env = idleAnswers m ++ .ok [0xFE] :: rest →
      ∃ t, exec .pollToken s = .next t ∧ t.result = .done ∧ Talked s t (idleReads m ++ [byteRead 0xFE]) rest s.cs) ∧
    (m < s.params.nToken → b ≠ 0xFE → b ≠ 0xFF → s.env = idleAnswers m ++ .ok [b] :: cleanupAnswer ok :: rest →
      ∃ t, exec .pollToken s = .next t ∧ AbortedWith s t .badToken (idleReads m ++ [byteRead b]) ok rest) ∧
    (s.env = idleAnswers s.params.nToken ++ cleanupAnswer ok :: rest →
      ∃ t, exec .pollToken s = .next t ∧ AbortedWith s t .tokenTimeout (idleReads s.params.nToken) ok rest)

/-- R144: the busy wait ends on the first 0xFF within the budget and aborts after a budget of other bytes. It is run
alone here, and its abort keeps the session as a sector operation's does: log entries 8 and 18. -/
def Obligations.BusyWaitEndsOnIdle : Prop :=
  ∀ (s : State) (busy : List Byte) (ok : Bool) (rest : List Answer),
    (busyFits s.params busy = true → s.env = busyAnswers busy ++ rest →
      ∃ t, exec .busyWait s = .next t ∧ t.result = .done ∧ Talked s t (busyEvents busy) rest s.cs) ∧
    (busy.length = s.params.nBusy → (∀ b ∈ busy, b ≠ 0xFF) →
      s.env = busy.map (fun b => .ok [b]) ++ cleanupAnswer ok :: rest →
      ∃ t, exec .busyWait s = .next t ∧ AbortedWith s t .busyTimeout (busy.map byteRead) ok rest)

/-- R140: a command transaction with a 1-byte response writes the frame, polls, and returns the reply, a timeout
included. It is run alone here (log entry 18), also with an index the session never sends (log entry 20). -/
def Obligations.SendCmdReturnsTheReply : Prop :=
  ∀ (s : State) (index : Nat) (arg : Word) (r : CardReply) (rest : List Answer), s.framing → index ≤ 63 →
    r.fits s.params.nResp = true → s.env = txAnswers s.params r ++ rest →
    ∃ t, exec (.sendCmd index arg .r1) s = .next t ∧ t.result = .response r.resp none ∧
      Talked s t (txEvents s.params index arg r) rest .asserted

/-- R142, R140: after the R1 byte of a 5-byte response the four remaining bytes are read in one call, without polling,
and reassembled big-endian; without an R1 byte they are not read. It is run alone here (log entry 18), also with an
index the session never sends (log entry 20). -/
def Obligations.TrailingBytesAreReadInOneCall : Prop :=
  ∀ (s : State) (index : Nat) (arg : Word) (m : Nat) (b b1 b2 b3 b4 : Byte) (rest : List Answer), s.framing →
    index ≤ 63 →
    (m < s.params.nResp → b ≠ 0xFF →
      s.env = okAnswer :: (idleAnswers m ++ .ok [b] :: .ok [b1, b2, b3, b4] :: rest) →
      ∃ t, exec (.sendCmd index arg .r5) s = .next t ∧
        t.result = .response (.byte b) (some (b1 ++ b2 ++ b3 ++ b4)) ∧
        Talked s t (frameEvent index arg :: (idleReads m ++ [byteRead b, .read 4 .none (some [b1, b2, b3, b4])])) rest
          .asserted) ∧
    (s.env = txAnswers s.params .silent ++ rest →
      ∃ t, exec (.sendCmd index arg .r5) s = .next t ∧ t.result = .response .timeout none ∧
        Talked s t (txEvents s.params index arg .silent) rest .asserted)

/-- R231, R235, R236: a failed transport call aborts with TRANSPORT at once, the cleanup being the only call after it:
at the frame, at any read of the three polls, at the trailing bytes (whatever the R1 byte was), at the release, at the
payload and CRC reads of a received block, at the token, payload and filler writes of a sent one, at the data response,
at the 0xFC and 0xFD tokens (R143, R144, R179, R181, R183, R187, R189). That these are run alone is the model's choice
(log entries 9, 18 and 20). -/
def Obligations.TransportFailureAborts : Prop :=
  ∀ (s : State) (index : Nat) (arg : Word) (shape : Shape) (m : Nat) (b : Byte) (busy payload : List Byte)
    (token : BlockToken) (buf : Buffer) (off : Nat) (ok : Bool) (rest : List Answer),
    (s.framing → index ≤ 63 → s.env = .fail :: cleanupAnswer ok :: rest →
      ∃ t, exec (.sendCmd index arg shape) s = .next t ∧
        AbortedWith s t .transport [.write (frameWith builtTable index arg) .assert false] ok rest) ∧
    (m < s.params.nResp → s.env = idleAnswers m ++ .fail :: cleanupAnswer ok :: rest →
      ∃ t, exec .pollResponse s = .next t ∧
        AbortedWith s t .transport (idleReads m ++ [.read 1 .none none]) ok rest) ∧
    (s.framing → index ≤ 63 → m < s.params.nResp → b ≠ 0xFF →
      s.env = okAnswer :: (idleAnswers m ++ .ok [b] :: .fail :: cleanupAnswer ok :: rest) →
      ∃ t, exec (.sendCmd index arg .r5) s = .next t ∧
        AbortedWith s t .transport (frameEvent index arg :: (idleReads m ++ [byteRead b, .read 4 .none none])) ok
          rest) ∧
    (s.env = .fail :: cleanupAnswer ok :: rest →
      ∃ t, exec .release s = .next t ∧ AbortedWith s t .transport [.write [0xFF] .deassert false] ok rest) ∧
    (m < s.params.nToken → s.env = idleAnswers m ++ .fail :: cleanupAnswer ok :: rest →
      ∃ t, exec .pollToken s = .next t ∧ AbortedWith s t .transport (idleReads m ++ [readFailed 1]) ok rest) ∧
    (busy.length < s.params.nBusy → (∀ c ∈ busy, c ≠ 0xFF) →
      s.env = busy.map (fun c => .ok [c]) ++ .fail :: cleanupAnswer ok :: rest →
      ∃ t, exec .busyWait s = .next t ∧ AbortedWith s t .transport (busy.map byteRead ++ [readFailed 1]) ok rest) ∧
    (buf.holdsSectorAt off = true → m < s.params.nToken →
      s.env = idleAnswers m ++ .ok [0xFE] :: .fail :: cleanupAnswer ok :: rest →
      ∃ t, exec (.receiveBlock buf off) s = .next t ∧
        AbortedWith s t .transport (idleReads m ++ [byteRead 0xFE, readFailed 512]) ok rest) ∧
    (buf.holdsSectorAt off = true → m < s.params.nToken → s.mem.wf = true → payload.length = 512 →
      s.env = idleAnswers m ++ .ok [0xFE] :: .ok payload :: .fail :: cleanupAnswer ok :: rest →
      ∃ t, exec (.receiveBlock buf off) s = .next t ∧ Received s t buf off payload ∧
        AbortedWith { s with mem := t.mem } t .transport
          (idleReads m ++ [byteRead 0xFE, .read 512 .none (some payload), readFailed 2]) ok rest) ∧
    (buf.holdsSectorAt off = true → s.env = .fail :: cleanupAnswer ok :: rest →
      ∃ t, exec (.sendBlock token buf off) s = .next t ∧
        AbortedWith s t .transport [writeFailed [tokenByte token]] ok rest) ∧
    (buf.holdsSectorAt off = true → s.env = okAnswer :: .fail :: cleanupAnswer ok :: rest →
      ∃ t, exec (.sendBlock token buf off) s = .next t ∧
        AbortedWith s t .transport [wrote [tokenByte token], writeFailed (s.memRead buf off 512)] ok rest) ∧
    (buf.holdsSectorAt off = true → s.env = okAnswer :: okAnswer :: .fail :: cleanupAnswer ok :: rest →
      ∃ t, exec (.sendBlock token buf off) s = .next t ∧
        AbortedWith s t .transport
          [wrote [tokenByte token], wrote (s.memRead buf off 512), writeFailed [0xFF, 0xFF]] ok rest) ∧
    (s.env = .fail :: cleanupAnswer ok :: rest →
      (∃ t, exec .checkDataResponse s = .next t ∧ AbortedWith s t .transport [readFailed 1] ok rest) ∧
      (∃ t, exec .tokenStartMultiWrite s = .next t ∧ AbortedWith s t .transport [writeFailed [0xFC]] ok rest) ∧
      (∃ t, exec .tokenStopTran s = .next t ∧ AbortedWith s t .transport [writeFailed [0xFD]] ok rest))

/-- R145, R237: release and cleanup are the same transfer, one 0xFF byte with chip-select deasserted after it. They are
run alone here: log entry 18. -/
def Obligations.ReleaseAndCleanupDeassert : Prop :=
  ∀ (s : State) (rest : List Answer), s.env = okAnswer :: rest →
    (∃ t, exec .release s = .next t ∧ t.result = .done ∧ Talked s t [.write [0xFF] .deassert true] rest .deasserted) ∧
    (∃ t, exec .cleanup s = .next t ∧ t.result = .ok ∧ Talked s t [.write [0xFF] .deassert true] rest .deasserted)

/-! ### The frames, tokens and responses as operations (30_encoding, 42_session_init, 43_session_io) -/

/-- R153, R154, R155, R158: CMD0, CMD8 and both CMD58 pass on the responses their steps require, are released, and
change nothing else, but for the addressing mode, which the CMD58 of step 6 takes from OCR bit 30. Which CMD58 it is, is
read from the sequencer position (log entry 10). That a frame is an operation of its own is the model's choice (log
entry 9). -/
def Obligations.InitializationFramesPass : Prop :=
  ∀ (s : State) (m : Nat) (b : Byte) (ocr : Word) (rest : List Answer), s.framing → m < s.params.nResp →
    (s.env = txAnswers s.params (.after m 0x01) ++ okAnswer :: rest →
      ∃ t, exec .cmd0 s = .next t ∧ t.result = .done ∧
        Talked s t (txEvents s.params 0 0 (.after m 0x01) ++ [releaseEvent]) rest .deasserted) ∧
    (s.env = wideAnswers m 0x01 426 ++ okAnswer :: rest →
      ∃ t, exec .cmd8 s = .next t ∧ t.result = .done ∧
        Talked s t (wideEvents 8 0x000001AA m 0x01 426 ++ [releaseEvent]) rest .deasserted) ∧
    (s.seq.tx ≠ some (.init .ocrPower) → b ≠ 0xFF → ocr.getLsbD 20 = true →
      s.env = wideAnswers m b ocr ++ okAnswer :: rest →
      ∃ t, exec .cmd58 s = .next t ∧ t.result = .done ∧
        Talked s t (wideEvents 58 0 m b ocr ++ [releaseEvent]) rest .deasserted) ∧
    (s.seq.tx = some (.init .ocrPower) → b ≠ 0xFF → ocr.getLsbD 31 = true →
      s.env = wideAnswers m b ocr ++ okAnswer :: rest →
      ∃ t, exec .cmd58 s = .next t ∧ t.result = .done ∧
        Talked { s with isHc := some (ocr.getLsbD 30) } t (wideEvents 58 0 m b ocr ++ [releaseEvent]) rest .deasserted)

/-- R153 to R158, R230: the causes the same frames abort with, each after its response and with one cleanup. Which CMD58
and which CMD55 it is, is read from the sequencer position (log entry 10). That a frame is an operation of its own is
the model's choice (log entry 9), and whether the abort is one of an initialization, which R161 and R238 end
NOT_INITIALIZED, is read from the session (log entry 8): one run alone outside INITIALIZING leaves READY as it was when
the cleanup is answered OK. -/
def Obligations.InitializationFramesAbort : Prop :=
  ∀ (s : State) (m : Nat) (b : Byte) (v : Word) (ok : Bool) (rest : List Answer), s.framing → m < s.params.nResp →
    b ≠ 0xFF →
    (b ≠ 0x01 → s.env = txAnswers s.params (.after m b) ++ cleanupAnswer ok :: rest →
      ∃ t, exec .cmd0 s = .next t ∧ AbortedWith s t .cmd0NotIdle (txEvents s.params 0 0 (.after m b)) ok rest) ∧
    (b ≠ 0x01 → s.env = wideAnswers m b v ++ cleanupAnswer ok :: rest →
      ∃ t, exec .cmd8 s = .next t ∧ AbortedWith s t .cmd8BadR1 (wideEvents 8 0x000001AA m b v) ok rest) ∧
    (v ≠ 426 → s.env = wideAnswers m 0x01 v ++ cleanupAnswer ok :: rest →
      ∃ t, exec .cmd8 s = .next t ∧ AbortedWith s t .cmd8BadEcho (wideEvents 8 0x000001AA m 0x01 v) ok rest) ∧
    (s.seq.tx ≠ some (.init .ocrPower) → v.getLsbD 20 = false → s.env = wideAnswers m b v ++ cleanupAnswer ok :: rest →
      ∃ t, exec .cmd58 s = .next t ∧ AbortedWith s t .ocrNo3v3 (wideEvents 58 0 m b v) ok rest) ∧
    (s.seq.tx = some (.init .ocrPower) → v.getLsbD 31 = false → s.env = wideAnswers m b v ++ cleanupAnswer ok :: rest →
      ∃ t, exec .cmd58 s = .next t ∧ AbortedWith s t .ocrNotPowered (wideEvents 58 0 m b v) ok rest) ∧
    (s.seq.tx ≠ some (.io .appErase) → s.env = txAnswers s.params (.after m 0x04) ++ cleanupAnswer ok :: rest →
      ∃ t, exec .cmd55 s = .next t ∧ AbortedWith s t .appCmdIllegal (txEvents s.params 55 0 (.after m 0x04)) ok rest) ∧
    (s.env = txAnswers s.params .silent ++ cleanupAnswer ok :: rest →
      (∃ t, exec .cmd0 s = .next t ∧ AbortedWith s t .respTimeout (txEvents s.params 0 0 .silent) ok rest) ∧
      (∃ t, exec .cmd8 s = .next t ∧ AbortedWith s t .respTimeout (txEvents s.params 8 0x000001AA .silent) ok rest) ∧
      (∃ t, exec .cmd58 s = .next t ∧ AbortedWith s t .respTimeout (txEvents s.params 58 0 .silent) ok rest))

/-- R156, R157, R185: CMD55, ACMD41 and ACMD23 go on whatever the card replies, silence included, except CMD55 on 0x04
outside the pre-erase; each is released. Whose CMD55 it is, is read from the sequencer position (log entry 10). That a
frame is an operation of its own is the model's choice (log entry 9). -/
def Obligations.AppCommandFramesGoOn : Prop :=
  ∀ (s : State) (count : Word) (r : CardReply) (rest : List Answer), s.framing → r.fits s.params.nResp = true →
    s.env = txAnswers s.params r ++ okAnswer :: rest →
    (r.resp ≠ .byte 0x04 ∨ s.seq.tx = some (.io .appErase) →
      ∃ t, exec .cmd55 s = .next t ∧ t.result = .response r.resp none ∧
        Talked s t (txEvents s.params 55 0 r ++ [releaseEvent]) rest .deasserted) ∧
    (∃ t, exec .acmd41 s = .next t ∧ t.result = .response r.resp none ∧
      Talked s t (txEvents s.params 41 0x40000000 r ++ [releaseEvent]) rest .deasserted) ∧
    (∃ t, exec (.acmd23 count) s = .next t ∧ t.result = .response r.resp none ∧
      Talked s t (txEvents s.params 23 count r ++ [releaseEvent]) rest .deasserted)

/-- R173, R175, R180, R186: CMD17, CMD18, CMD24 and CMD25 pass exactly on R1 = 0x00 and leave chip-select asserted;
another R1 aborts with CMD_BAD_R1, silence with RESP_TIMEOUT. That a frame is an operation of its own is the model's
choice (log entry 9), in every session state; an abort's session effect is read from the session (log entry 8). -/
def Obligations.DataCommandFramesRequireZero : Prop :=
  ∀ (s : State) (arg : Word) (m : Nat) (b : Byte) (ok : Bool) (rest : List Answer) (i : Instr) (index : Nat), s.framing →
    (i = .cmd17 arg ∧ index = 17) ∨ (i = .cmd18 arg ∧ index = 18) ∨ (i = .cmd24 arg ∧ index = 24) ∨
      (i = .cmd25 arg ∧ index = 25) →
    (m < s.params.nResp → s.env = txAnswers s.params (.after m 0x00) ++ rest →
      ∃ t, exec i s = .next t ∧ t.result = .response (.byte 0x00) none ∧
        Talked s t (txEvents s.params index arg (.after m 0x00)) rest .asserted) ∧
    (m < s.params.nResp → b ≠ 0x00 → b ≠ 0xFF → s.env = txAnswers s.params (.after m b) ++ cleanupAnswer ok :: rest →
      ∃ t, exec i s = .next t ∧ AbortedWith s t .cmdBadR1 (txEvents s.params index arg (.after m b)) ok rest) ∧
    (s.env = txAnswers s.params .silent ++ cleanupAnswer ok :: rest →
      ∃ t, exec i s = .next t ∧ AbortedWith s t .respTimeout (txEvents s.params index arg .silent) ok rest)

/-- R177: CMD12 requires R1 = 0x00, waits until the card is idle, and is released; another R1, silence and a card that
stays busy abort it. That a frame is an operation of its own is the model's choice (log entry 9), in every session
state; an abort's session effect is read from the session (log entry 8). -/
def Obligations.StopCommandWaitsForIdle : Prop :=
  ∀ (s : State) (m : Nat) (b : Byte) (busy : List Byte) (ok : Bool) (rest : List Answer), s.framing →
    m < s.params.nResp →
    (busyFits s.params busy = true →
      s.env = txAnswers s.params (.after m 0x00) ++ busyAnswers busy ++ okAnswer :: rest →
      ∃ t, exec .cmd12 s = .next t ∧ t.result = .done ∧
        Talked s t (txEvents s.params 12 0 (.after m 0x00) ++ busyEvents busy ++ [releaseEvent]) rest .deasserted) ∧
    (b ≠ 0x00 → b ≠ 0xFF → s.env = txAnswers s.params (.after m b) ++ cleanupAnswer ok :: rest →
      ∃ t, exec .cmd12 s = .next t ∧ AbortedWith s t .cmdBadR1 (txEvents s.params 12 0 (.after m b)) ok rest) ∧
    (busy.length = s.params.nBusy → (∀ c ∈ busy, c ≠ 0xFF) →
      s.env = txAnswers s.params (.after m 0x00) ++ busy.map (fun c => .ok [c]) ++ cleanupAnswer ok :: rest →
      ∃ t, exec .cmd12 s = .next t ∧
        AbortedWith s t .busyTimeout (txEvents s.params 12 0 (.after m 0x00) ++ busy.map byteRead) ok rest) ∧
    (s.env = txAnswers s.params .silent ++ cleanupAnswer ok :: rest →
      ∃ t, exec .cmd12 s = .next t ∧ AbortedWith s t .respTimeout (txEvents s.params 12 0 .silent) ok rest)

/-- R80, R143, R183, R187, R189, R181: the tokens and the data response as operations. A start token is sent where the
sequencer sends one and received otherwise; a received unit is the environment's next answer (log entries 9 and 10). -/
def Obligations.TokensAreSentOrReceived : Prop :=
  ∀ (s : State) (busy : List Byte) (upper : BitVec 4) (rest : List Answer),
    (s.seq.sendsToken = true → s.env = okAnswer :: rest →
      ∃ t, exec .tokenStartBlock s = .next t ∧ t.result = .done ∧ Talked s t [wrote [0xFE]] rest s.cs) ∧
    (s.seq.sendsToken = false → 1 ≤ s.params.nToken →
      ∃ t, exec .tokenStartBlock s = .next t ∧ t.result = .done ∧ Talked s t [byteRead 0xFE] s.env s.cs) ∧
    (s.env = okAnswer :: rest →
      ∃ t, exec .tokenStartMultiWrite s = .next t ∧ t.result = .done ∧ Talked s t [wrote [0xFC]] rest s.cs) ∧
    (busyFits s.params busy = true → s.env = okAnswer :: (busyAnswers busy ++ okAnswer :: rest) →
      ∃ t, exec .tokenStopTran s = .next t ∧ t.result = .done ∧
        Talked s t (wrote [0xFD] :: (busyEvents busy ++ [releaseEvent])) rest .deasserted) ∧
    (∃ t, exec (.dataResponseAccepted upper) s = .next t ∧ t.result = .done ∧
      Talked s t [byteRead (upper ++ 0b0101#4)] s.env s.cs)

/-- R74, R76, R77, R79, R154, R155, R158: a received R1, R3 or R7 that passes its check. That a response is an operation of
its own, its bytes coming before the environment's other answers, and that an R3 is checked as step 4's everywhere but in
step 6, are the model's choices (log entries 9 and 10). -/
def Obligations.ResponsesPassTheirChecks : Prop :=
  ∀ (s : State) (b : Byte) (ocr : Word), b ≠ 0xFF → 1 ≤ s.params.nResp →
    (∃ t, exec (.r1 b) s = .next t ∧ t.result = .response (.byte b) none ∧ Talked s t [byteRead b] s.env s.cs) ∧
    (∃ t, exec (.r7 0x01 426) s = .next t ∧ t.result = .response (.byte 0x01) (some 426) ∧
      Talked s t [byteRead 0x01, .read 4 .none (some [0x00, 0x00, 0x01, 0xAA])] s.env s.cs) ∧
    (s.seq.tx ≠ some (.init .ocrPower) → ocr.getLsbD 20 = true →
      ∃ t, exec (.r3 b ocr) s = .next t ∧ t.result = .response (.byte b) (some ocr) ∧
        Talked s t [byteRead b, wordRead ocr] s.env s.cs) ∧
    (s.seq.tx = some (.init .ocrPower) → ocr.getLsbD 31 = true →
      ∃ t, exec (.r3 b ocr) s = .next t ∧ t.result = .response (.byte b) (some ocr) ∧
        Talked { s with isHc := some (ocr.getLsbD 30) } t [byteRead b, wordRead ocr] s.env s.cs)

/-- R154, R155, R158: a received R7 or R3 that fails its check aborts after all five bytes. That a response is an
operation of its own, and that an R3 is checked as step 4's everywhere but in step 6, are the model's choices (log
entries 9 and 10). The abort's session effect is read from the session (log entry 8). -/
def Obligations.ResponsesFailTheirChecks : Prop :=
  ∀ (s : State) (b : Byte) (v : Word) (ok : Bool) (rest : List Answer), b ≠ 0xFF → 1 ≤ s.params.nResp →
    s.env = cleanupAnswer ok :: rest →
    (b ≠ 0x01 → ∃ t, exec (.r7 b v) s = .next t ∧ AbortedWith s t .cmd8BadR1 [byteRead b, wordRead v] ok rest) ∧
    (v ≠ 426 → ∃ t, exec (.r7 0x01 v) s = .next t ∧
      AbortedWith s t .cmd8BadEcho [byteRead 0x01, wordRead v] ok rest) ∧
    (s.seq.tx ≠ some (.init .ocrPower) → v.getLsbD 20 = false →
      ∃ t, exec (.r3 b v) s = .next t ∧ AbortedWith s t .ocrNo3v3 [byteRead b, wordRead v] ok rest) ∧
    (s.seq.tx = some (.init .ocrPower) → v.getLsbD 31 = false →
      ∃ t, exec (.r3 b v) s = .next t ∧ AbortedWith s t .ocrNotPowered [byteRead b, wordRead v] ok rest)

/-! ### Initialization (42_session_init) -/

/-- R150 to R163: on any card whose answers pass every check, initialization makes exactly the calls of the listed
sequence, whatever the delays and the number of loop rounds, and ends READY with the addressing mode of OCR bit 30, the
fast clock and chip-select deasserted. The same for the host's call, and for the ready check when not READY. -/
def Obligations.InitializationCompletes : Prop :=
  ∀ (s : State) (c : CardInit) (rest : List Answer) (i : Instr), s.framing → c.passes s.params = true →
    s.env = c.answers s.params ++ rest →
    i = .sessionInitialize ∨ (i = .hostInitialize 0 ∧ s.seq = .idle) ∨ (i = .ensureReady ∧ s.session ≠ .ready) →
    ∃ t, exec i s = .next t ∧ EndedOk s t (c.events s.params) rest ∧ t.session = .ready ∧
      t.isHc = some (c.power.getLsbD 30) ∧ t.clock = .at .fast ∧ t.mem = s.mem

/-- R150, R160 to R162: whatever the environment, initialization returns OK exactly when it leaves READY, else FAILED
leaving NOT_INITIALIZED; `last_ok` records which, the sequencer is IDLE. R151, R152, R159, R233: a rejected clock aborts
it with CLOCK_REJECTED, in step 1 with no wake bytes sent, in step 7 after all of steps 1 to 6; a failed wake write with
TRANSPORT. -/
def Obligations.InitializationIsReadyExactlyOnOk : Prop :=
  (∀ (s : State) (c : CardInit) (ok : Bool) (rest : List Answer),
    (s.env = .fail :: cleanupAnswer ok :: rest → ∃ t, exec .sessionInitialize s = .next t ∧
      InitFailed s t .clockRejected [.setClock .slow false] ok rest ∧ t.clock = .unknown ∧ t.isHc = s.isHc) ∧
    (s.env = okAnswer :: .fail :: cleanupAnswer ok :: rest → ∃ t, exec .sessionInitialize s = .next t ∧
      InitFailed s t .transport [.setClock .slow true, writeFailed (List.replicate s.params.nWake 0xFF)] ok rest ∧
      t.clock = .at .slow ∧ t.isHc = s.isHc) ∧
    (s.framing → c.passes s.params = true → s.env = c.slowAnswers s.params ++ .fail :: cleanupAnswer ok :: rest →
      ∃ t, exec .sessionInitialize s = .next t ∧
        InitFailed s t .clockRejected (c.slowEvents s.params ++ [.setClock .fast false]) ok rest ∧
        t.clock = .unknown ∧ t.isHc = some (c.power.getLsbD 30))) ∧
  ∀ s t : State, exec .sessionInitialize s = .next t →
    ((t.result = .ok ∧ t.session = .ready ∧ t.lastOk = true ∧ t.isHc.isSome = true ∧ t.clock = .at .fast ∧
        t.cs = .deasserted ∧ t.cause = s.cause) ∨
      (t.result = .failed ∧ t.session = .notInitialized ∧ t.lastOk = false ∧ t.cause.isSome = true ∧
        ∃ ok, t.trace.getLast? = some (.write [0xFF] .deassert ok) ∧ t.cs = if ok then .deasserted else .unknown)) ∧
    t.seq = .idle ∧ t.mem = s.mem ∧ SameFixed s t

/-- R164 (3): a CMD8 echo other than 426 fails initialization, which stays NOT_INITIALIZED: nothing is sent after the
echo but the cleanup. -/
def Obligations.WrongEchoFailsInitialization : Prop :=
  ∀ (s : State) (m0 m8 : Nat) (echo : Word) (ok : Bool) (rest : List Answer), s.framing → m0 < s.params.nResp →
    m8 < s.params.nResp → echo ≠ 426 →
    s.env = [okAnswer, okAnswer] ++ txAnswers s.params (.after m0 0x01) ++ [okAnswer] ++ wideAnswers m8 0x01 echo
      ++ cleanupAnswer ok :: rest →
    ∃ t, exec .sessionInitialize s = .next t ∧ t.result = .failed ∧ t.session = .notInitialized ∧
      t.cause = some .cmd8BadEcho ∧ t.lastOk = false ∧ t.isHc = s.isHc ∧ t.clock = .at .slow ∧ t.env = rest ∧
      t.trace = s.trace ++ [.setClock .slow true, wrote (List.replicate s.params.nWake 0xFF)]
        ++ txEvents s.params 0 0 (.after m0 0x01) ++ [releaseEvent] ++ wideEvents 8 0x000001AA m8 0x01 echo
        ++ [.write [0xFF] .deassert ok]

/-- R156: after the 1600th ACMD41 without 0x00 initialization aborts with INIT_TIMEOUT and no further frame. -/
def Obligations.InitializationGivesUpAfter1600Rounds : Prop :=
  ∀ (s : State) (c : CardInit) (ok : Bool) (rest : List Answer), s.framing → c.headPasses s.params = true →
    c.rounds.length = 1600 → c.rounds.all (roundGoesOn s.params) = true →
    s.env = c.headAnswers s.params ++ (c.rounds.map (roundAnswers s.params)).flatten ++ cleanupAnswer ok :: rest →
    ∃ t, exec .sessionInitialize s = .next t ∧ t.result = .failed ∧ t.session = .notInitialized ∧
      t.cause = some .initTimeout ∧ t.isHc = s.isHc ∧ t.env = rest ∧
      t.trace = s.trace ++ c.headEvents s.params ++ (c.rounds.map (roundEvents s.params)).flatten
        ++ [.write [0xFF] .deassert ok]

/-- R171, R213, R214: a sector call first runs the ready check. Ready, it does nothing; when an initialization it runs
succeeds the call goes on from there; when it fails the call returns FAILED and makes no further transport call. The
buffer may be longer: log entry 19. -/
def Obligations.SectorCallRunsTheReadyCheckFirst : Prop :=
  ∀ (s u : State) (buf : Buffer) (sector count : Word) (i : Instr), s.seq = .idle → count ≠ 0 →
    buf.holds count = true → i = .hostRead 0 buf sector count ∨ i = .hostWrite 0 buf sector count →
    (s.session = .ready → exec .ensureReady s = .next (s.returning .ok)) ∧
    (exec .ensureReady s = .next u → u.result = .ok → exec i s = exec i u) ∧
    (exec .ensureReady s = .next u → u.result = .failed →
      ∃ t, exec i s = .next t ∧ t.result = .failed ∧ t.trace = u.trace ∧ t.env = u.env ∧
        t.session = .notInitialized ∧ t.cause = u.cause ∧ t.lastOk = false ∧ t.seq = .idle ∧ t.isHc = u.isHc ∧
        t.cs = u.cs ∧ t.clock = u.clock)

/-! ### Sector transfers (43_session_io) -/

/-- R170, R60: the address of a sector: the sector number on a high-capacity card, its byte offset modulo 2^32, a
multiple of 512, on a standard-capacity one; nothing changes. While the field holds no value, one value that the model
leaves open is read, the same for every sector (93 U2, "any value"; log entry 26). The scratch buffer is kept: log entry
6. That it is run outside READY too is the model's choice (log entry 24). -/
def Obligations.AddressFollowsTheCapacity : Prop :=
  ∀ (s : State) (sector : Word),
    (s.isHc = some true → exec (.addressFor sector) s = .next (s.returning (.word sector))) ∧
    (s.isHc = some false → ∃ a : Word, exec (.addressFor sector) s = .next (s.returning (.word a)) ∧
      a.toNat = (sector.toNat * 512) % 2 ^ 32 ∧ a.toNat % 512 = 0) ∧
    (s.isHc = none → ∃ hc : Bool, ∀ sector' : Word,
      exec (.addressFor sector') s = .next (s.returning (.word (if hc then sector' else sector' * 512))))

/-- R179, R183, R181: a received block lands in the buffer and nowhere else, its CRC of any value discarded; a sent
block is the token, the buffer's 512 bytes and FF FF; a data response is accepted exactly when its low nibble is 0101.
They are run alone here (log entries 8 and 18), in a buffer that may be longer (log entry 19). -/
def Obligations.BlocksMoveThroughTheBuffer : Prop :=
  ∀ (s : State) (buf : Buffer) (off : Nat) (c : CardBlock) (token : BlockToken) (dr : Byte) (ok : Bool)
    (rest : List Answer), buf.holdsSectorAt off = true →
    (c.fits s.params = true → s.mem.wf = true → s.env = c.answers ++ rest →
      ∃ t, exec (.receiveBlock buf off) s = .next t ∧ t.result = .done ∧ Received s t buf off c.payload ∧
        Talked { s with mem := t.mem } t c.events rest s.cs) ∧
    (s.env = okAnswer :: okAnswer :: okAnswer :: rest →
      ∃ t, exec (.sendBlock token buf off) s = .next t ∧ t.result = .done ∧
        Talked s t [wrote [if token = .single then 0xFE else 0xFC], wrote (s.memRead buf off 512), wrote [0xFF, 0xFF]]
          rest s.cs) ∧
    (dr.extractLsb' 0 4 = 0b0101#4 → s.env = .ok [dr] :: rest →
      ∃ t, exec .checkDataResponse s = .next t ∧ t.result = .done ∧ Talked s t [byteRead dr] rest s.cs) ∧
    (dr.extractLsb' 0 4 ≠ 0b0101#4 → s.env = .ok [dr] :: cleanupAnswer ok :: rest →
      ∃ t, exec .checkDataResponse s = .next t ∧ AbortedWith s t .dataRejected [byteRead dr] ok rest)

/-- R173, R174, R213: a single-sector read, alone or as the host's read of one sector on a READY card. Run alone it is
said of every session state (log entry 24), and the buffer may be longer (log entry 19); while `st.is_hc` holds no value
the open value is read (log entry 26): the model's choices. -/
def Obligations.SingleReadCompletes : Prop :=
  ∀ (s : State) (hc : Bool) (buf : Buffer) (sector : Word) (m : Nat) (c : CardBlock) (rest : List Answer) (i : Instr),
    s.framing → s.addressing = hc → s.mem.wf = true → buf.holds 1 = true → m < s.params.nResp →
    c.fits s.params = true → s.env = txAnswers s.params (.after m 0x00) ++ c.answers ++ okAnswer :: rest →
    i = .readSingle buf sector ∨ (i = .hostRead 0 buf sector 1 ∧ s.seq = .idle ∧ s.session = .ready ∧
      (hc = true ∨ sector.toNat ≤ 0x7FFFFF)) →
    ∃ t, exec i s = .next t ∧ SameSession s t ∧ Received s t buf 0 c.payload ∧
      EndedOk s t (txEvents s.params 17 (if hc then sector else sector * 512) (.after m 0x00) ++ c.events
        ++ [releaseEvent]) rest

/-- R175 to R178, R213, R58: a multi-sector read: CMD18 once, every block in turn into its place, CMD12, the busy wait,
the release. Run alone it is said of every session state (log entry 24), and the buffer may be longer (log entry 19);
while `st.is_hc` holds no value the open value is read (log entry 26): the model's choices. -/
def Obligations.MultiReadCompletes : Prop :=
  ∀ (s : State) (hc : Bool) (buf : Buffer) (sector count : Word) (m m' : Nat) (blocks : List CardBlock)
    (busy : List Byte) (rest : List Answer) (i : Instr),
    s.framing → s.addressing = hc → s.mem.wf = true → 2 ≤ count.toNat → buf.holds count = true →
    blocks.length = count.toNat → m < s.params.nResp → m' < s.params.nResp → busyFits s.params busy = true →
    (∀ c ∈ blocks, c.fits s.params = true) →
    s.env = txAnswers s.params (.after m 0x00) ++ (blocks.map CardBlock.answers).flatten
      ++ txAnswers s.params (.after m' 0x00) ++ busyAnswers busy ++ okAnswer :: rest →
    i = .readMulti buf sector count ∨ (i = .hostRead 0 buf sector count ∧ s.seq = .idle ∧ s.session = .ready ∧
      (hc = true ∨ sector.toNat ≤ 0x7FFFFF)) →
    ∃ t, exec i s = .next t ∧ SameSession s t ∧ Received s t buf 0 (blocks.map CardBlock.payload).flatten ∧
      EndedOk s t (txEvents s.params 18 (if hc then sector else sector * 512) (.after m 0x00)
        ++ (blocks.map CardBlock.events).flatten ++ txEvents s.params 12 0 (.after m' 0x00) ++ busyEvents busy
        ++ [releaseEvent]) rest

/-- R180, R182, R214: a single-sector write: CMD24, the block from the buffer, the data response, the busy wait, the
release; the buffer is only read, and no CMD55 or ACMD23 is sent. Run alone it is said of every session state (log entry
24), and the buffer may be longer (log entry 19); while `st.is_hc` holds no value the open value is read (log entry 26):
the model's choices. -/
def Obligations.SingleWriteCompletes : Prop :=
  ∀ (s : State) (hc : Bool) (buf : Buffer) (sector : Word) (m : Nat) (c : CardAccept) (rest : List Answer) (i : Instr),
    s.framing → s.addressing = hc → buf.holds 1 = true → m < s.params.nResp → c.fits s.params = true →
    s.env = txAnswers s.params (.after m 0x00) ++ c.answers ++ okAnswer :: rest →
    i = .writeSingle buf sector ∨ (i = .hostWrite 0 buf sector 1 ∧ s.seq = .idle ∧ s.session = .ready ∧
      (hc = true ∨ sector.toNat ≤ 0x7FFFFF)) →
    ∃ t, exec i s = .next t ∧ SameSession s t ∧ t.mem = s.mem ∧
      EndedOk s t (txEvents s.params 24 (if hc then sector else sector * 512) (.after m 0x00)
        ++ c.events 0xFE (s.memRead buf 0 512) ++ [releaseEvent]) rest

/-- R185 to R190, R214: a multi-sector write: the pre-erase with the sector count, whatever the card replies to it,
CMD25, the blocks in ascending order from the buffer, the stop token, the busy wait, the release. Run alone it is said
of every session state (log entry 24), and the buffer may be longer (log entry 19); while `st.is_hc` holds no value the
open value is read (log entry 26): the model's choices. -/
def Obligations.MultiWriteCompletes : Prop :=
  ∀ (s : State) (hc : Bool) (buf : Buffer) (sector count : Word) (r55 r23 : CardReply) (m : Nat)
    (accepts : List CardAccept) (busy : List Byte) (rest : List Answer) (i : Instr),
    s.framing → s.addressing = hc → 2 ≤ count.toNat → buf.holds count = true → accepts.length = count.toNat →
    r55.fits s.params.nResp = true → r23.fits s.params.nResp = true → m < s.params.nResp →
    busyFits s.params busy = true → (∀ c ∈ accepts, c.fits s.params = true) →
    s.env = txAnswers s.params r55 ++ [okAnswer] ++ txAnswers s.params r23 ++ [okAnswer]
      ++ txAnswers s.params (.after m 0x00) ++ (accepts.map CardAccept.answers).flatten ++ [okAnswer]
      ++ busyAnswers busy ++ okAnswer :: rest →
    i = .writeMulti buf sector count ∨ (i = .hostWrite 0 buf sector count ∧ s.seq = .idle ∧ s.session = .ready ∧
      (hc = true ∨ sector.toNat ≤ 0x7FFFFF)) →
    ∃ t, exec i s = .next t ∧ SameSession s t ∧ t.mem = s.mem ∧
      EndedOk s t (txEvents s.params 55 0 r55 ++ [releaseEvent] ++ txEvents s.params 23 count r23 ++ [releaseEvent]
        ++ txEvents s.params 25 (if hc then sector else sector * 512) (.after m 0x00)
        ++ (List.zipWith (CardAccept.events 0xFC) (s.sectors buf 0 count.toNat) accepts).flatten ++ [wrote [0xFD]]
        ++ busyEvents busy ++ [releaseEvent]) rest

/-- R181, R182: a rejected data response ends a single-sector write at once: no busy wait, no retry, one cleanup, the
session unchanged when that succeeds. Run alone it is said of every session state (log entries 8 and 24), and the buffer
may be longer (log entry 19); while `st.is_hc` holds no value the open value is read (log entry 26): the model's
choices. -/
def Obligations.RejectedSingleWriteIsNotRetried : Prop :=
  ∀ (s : State) (hc : Bool) (buf : Buffer) (sector : Word) (m : Nat) (dr : Byte) (ok : Bool) (rest : List Answer)
    (i : Instr), s.framing → s.addressing = hc → buf.holds 1 = true → m < s.params.nResp →
    dr.extractLsb' 0 4 ≠ 0b0101#4 →
    s.env = txAnswers s.params (.after m 0x00) ++ [okAnswer, okAnswer, okAnswer, .ok [dr]] ++ cleanupAnswer ok :: rest →
    i = .writeSingle buf sector ∨ (i = .hostWrite 0 buf sector 1 ∧ s.seq = .idle ∧ s.session = .ready ∧
      (hc = true ∨ sector.toNat ≤ 0x7FFFFF)) →
    ∃ t, exec i s = .next t ∧ AbortedWith s t .dataRejected
      (txEvents s.params 24 (if hc then sector else sector * 512) (.after m 0x00)
        ++ [wrote [0xFE], wrote (s.memRead buf 0 512), wrote [0xFF, 0xFF], byteRead dr]) ok rest

/-- R187, R190, R191: a block rejected in a multi-sector write, alone or as the host's write on a READY card, ends it at
once: the blocks before it, then the cleanup, no 0xFD token and no further block. Run alone it is said of every session
state (log entries 8 and 24) and of a count of 1 (log entry 20), and the buffer may be longer (log entry 19); while
`st.is_hc` holds no value the open value is read (log entry 26): the model's choices. -/
def Obligations.RejectedMultiWriteSendsNoStopToken : Prop :=
  ∀ (s : State) (hc : Bool) (buf : Buffer) (sector count : Word) (r55 r23 : CardReply) (m : Nat)
    (accepts : List CardAccept) (dr : Byte) (ok : Bool) (rest : List Answer) (i : Instr),
    s.framing → s.addressing = hc → buf.holds count = true → accepts.length < count.toNat →
    r55.fits s.params.nResp = true → r23.fits s.params.nResp = true → m < s.params.nResp →
    (∀ c ∈ accepts, c.fits s.params = true) → dr.extractLsb' 0 4 ≠ 0b0101#4 →
    s.env = txAnswers s.params r55 ++ [okAnswer] ++ txAnswers s.params r23 ++ [okAnswer]
      ++ txAnswers s.params (.after m 0x00) ++ (accepts.map CardAccept.answers).flatten
      ++ [okAnswer, okAnswer, okAnswer, .ok [dr]] ++ cleanupAnswer ok :: rest →
    i = .writeMulti buf sector count ∨ (i = .hostWrite 0 buf sector count ∧ 2 ≤ count.toNat ∧ s.seq = .idle ∧
      s.session = .ready ∧ (hc = true ∨ sector.toNat ≤ 0x7FFFFF)) →
    ∃ t, exec i s = .next t ∧ AbortedWith s t .dataRejected
      (txEvents s.params 55 0 r55 ++ [releaseEvent] ++ txEvents s.params 23 count r23 ++ [releaseEvent]
        ++ txEvents s.params 25 (if hc then sector else sector * 512) (.after m 0x00)
        ++ (List.zipWith (CardAccept.events 0xFC) (s.sectors buf 0 accepts.length) accepts).flatten
        ++ [wrote [0xFC], wrote (s.memRead buf (512 * accepts.length) 512), wrote [0xFF, 0xFF], byteRead dr]) ok rest

/-- R176, R178, R191, R192: a wrong token in a multi-sector read, alone or as the host's read on a READY card, ends it
at once, without CMD12; no byte of memory outside the buffer changed, and what the buffer holds is left open. Run alone
it is said of every session state (log entries 8 and 24) and of a count of 1 (log entry 20), and the buffer may be
longer (log entry 19); while `st.is_hc` holds no value the open value is read (log entry 26): the model's choices. -/
def Obligations.WrongTokenEndsMultiReadWithoutStop : Prop :=
  ∀ (s : State) (hc : Bool) (buf : Buffer) (sector count : Word) (m w : Nat) (blocks : List CardBlock) (b : Byte)
    (ok : Bool) (rest : List Answer) (i : Instr),
    s.framing → s.addressing = hc → buf.holds count = true → blocks.length < count.toNat → m < s.params.nResp →
    (∀ c ∈ blocks, c.fits s.params = true) → w < s.params.nToken → b ≠ 0xFE → b ≠ 0xFF →
    s.env = txAnswers s.params (.after m 0x00) ++ (blocks.map CardBlock.answers).flatten ++ idleAnswers w
      ++ .ok [b] :: cleanupAnswer ok :: rest →
    i = .readMulti buf sector count ∨ (i = .hostRead 0 buf sector count ∧ 2 ≤ count.toNat ∧ s.seq = .idle ∧
      s.session = .ready ∧ (hc = true ∨ sector.toNat ≤ 0x7FFFFF)) →
    ∃ t, exec i s = .next t ∧ t.result = .failed ∧ t.cause = some .badToken ∧
      t.lastOk = false ∧ t.seq = .idle ∧ t.isHc = s.isHc ∧ t.clock = s.clock ∧ t.env = rest ∧
      t.session = (if s.session = .initializing ∨ ok = false then .notInitialized else s.session) ∧
      t.trace = s.trace ++ txEvents s.params 18 (if hc then sector else sector * 512) (.after m 0x00)
        ++ (blocks.map CardBlock.events).flatten ++ idleReads w ++ [byteRead b] ++ [.write [0xFF] .deassert ok] ∧
      ∀ a, ¬ (buf.base ≤ a ∧ a < buf.base + count.toNat * 512) → t.mem.read a = s.mem.read a

/-- R238, R172, R236: however a sector operation on a READY card fails, the cause is recorded, the last call is one
cleanup, and the session is left READY exactly when neither a transport failure nor the cleanup's failure was met. -/
def Obligations.SectorFailureKeepsReadyUnlessTransport : Prop :=
  ∀ (s t : State) (i : Instr) (buf : Buffer) (sector count : Word) (drive : Nat), s.session = .ready →
    i = .readSingle buf sector ∨ i = .readMulti buf sector count ∨ i = .writeSingle buf sector ∨
      i = .writeMulti buf sector count ∨ i = .hostRead drive buf sector count ∨ i = .hostWrite drive buf sector count →
    exec i s = .next t → t.result = .failed →
    ∃ (c : AbortCause) (ok : Bool), t.cause = some c ∧ t.trace.getLast? = some (.write [0xFF] .deassert ok) ∧
      t.session = (if c = .transport ∨ ok = false then .notInitialized else .ready) ∧
      t.cs = (if ok then .deasserted else .unknown) ∧ t.lastOk = false ∧ t.seq = .idle ∧ t.isHc = s.isHc ∧
      t.clock = s.clock

/-! ### The abort path and reset (60_exceptions, 70_reset_and_hazards) -/

/-- R239, R236 to R238: the abort path makes one cleanup transfer, whatever it is answered; when it fails no second one
is made, chip-select is unknown, the cause stays the first one, and the session is not initialized. It is run alone here
(log entry 18); whether an initialization is aborted is read from the session (log entry 8). -/
def Obligations.AbortPathCleansUpOnce : Prop :=
  ∀ (s : State) (c : AbortCause) (ok : Bool) (rest : List Answer), s.env = cleanupAnswer ok :: rest →
    ∃ t, exec (.abortPath c) s = .next t ∧ AbortedWith s t c [] ok rest

/-- R260, R34: reset puts every field that has a reset value at that value and makes no transport call. That it keeps the
trace, the callers' buffers, the parameters and what is still to come is the model's choice (log entry 15). -/
def Obligations.ResetGivesTheResetValues : Prop :=
  ∀ s : State, ∃ t, exec .resetBlock s = .next t ∧ t.session = .notInitialized ∧ t.isHc = none ∧ t.lastOk = false ∧
    (∀ i : Fin 256, t.table[i] = (bitwiseCrc [BitVec.ofNat 8 i.val]).setWidth 8) ∧ t.tableBuilt = true ∧
    t.cs = .deasserted ∧ t.clock = .unknown ∧ t.cause = none ∧ t.seq = .idle ∧ t.result = .done ∧
    t.trace = s.trace ∧ t.mem = s.mem ∧ t.params = s.params ∧ t.env = s.env ∧ t.clockAnswers = s.clockAnswers ∧
    t.requests = s.requests

/-! ### Host calls (44_block_device) -/

/-- R211: `status` answers OK exactly for drive 0 on a READY card, and changes nothing but the result. The scratch
buffer is kept: log entry 6. -/
def Obligations.StatusReportsReady : Prop :=
  ∀ (s : State) (drive : Nat), s.seq = .idle →
    (drive = 0 ∧ s.session = .ready → exec (.hostStatus drive) s = .next (s.returning .ok)) ∧
    (¬ (drive = 0 ∧ s.session = .ready) → exec (.hostStatus drive) s = .next (s.returning .notReady))

/-- R216: `sync` returns OK for drive 0 whatever the session is, and FAILED for another drive; it makes no transport call
and changes no state. FAILED is `rejected .badDrive` here. -/
def Obligations.SyncIsNoOperation : Prop :=
  ∀ (s : State) (drive : Nat), s.seq = .idle →
    exec (.hostSync drive) s = .next (s.returning (if drive = 0 then .ok else .rejected .badDrive))

/-- R217 to R219: the timestamp packs the six fields at their places; a field out of its range is refused. The scratch
buffer is kept: log entry 6. -/
def Obligations.TimestampPacksTheCalendar : Prop :=
  ∀ (s : State) (c : Calendar) (rest : List Calendar), s.seq = .idle → s.clockAnswers = c :: rest →
    (1980 ≤ c.year ∧ c.year ≤ 2107 ∧ 1 ≤ c.month ∧ c.month ≤ 12 ∧ 1 ≤ c.day ∧ c.day ≤ 31 ∧ c.hour ≤ 23 ∧
        c.minute ≤ 59 ∧ c.second ≤ 59 →
      ∃ w : Word, exec .hostTimestamp s = .next ({ s with clockAnswers := rest }.returning (.word w)) ∧
        w.toNat = (c.year - 1980) * 2 ^ 25 + c.month * 2 ^ 21 + c.day * 2 ^ 16 + c.hour * 2 ^ 11 + c.minute * 2 ^ 5
          + c.second / 2) ∧
    (c.year < 1980 ∨ 2107 < c.year ∨ c.month = 0 ∨ 12 < c.month ∨ c.day = 0 ∨ 31 < c.day ∨ 23 < c.hour ∨
        59 < c.minute ∨ 59 < c.second →
      exec .hostTimestamp s = .refused .timestampOutOfRange)

/-- R215, R212, R242, R247, R272: the parameter checks in their order, each ending the call with nothing of the block
changed and no transport call: the drive, the count, the buffer (refused), and after the ready check the range of a
standard-capacity card. What a read's buffer holds then is left open (R192). A host call while another is in progress is
refused before any of them. The scratch buffer is kept: log entry 6. A READY state in which `st.is_hc` holds no value,
which no run reaches, is checked with the open value (log entry 26). -/
def Obligations.RejectionsChangeNothing : Prop :=
  ∀ (s : State) (drive : Nat) (buf : Buffer) (sector count : Word) (i j : Instr),
    i = .hostRead drive buf sector count ∨ i = .hostWrite drive buf sector count →
    (s.seq ≠ .idle → j.isHostCall = true → exec j s = .refused .callInProgress) ∧
    (s.seq = .idle →
      (drive ≠ 0 → (∃ t, exec i s = .next t ∧ RejectedWith s t i .badDrive) ∧
        exec (.hostInitialize drive) s = .next (s.returning (.rejected .badDrive))) ∧
      (drive = 0 → count = 0 → ∃ t, exec i s = .next t ∧ RejectedWith s t i .zeroCount) ∧
      (drive = 0 → count ≠ 0 → buf.len < count.toNat * 512 → exec i s = .refused .bufferTooShort) ∧
      (drive = 0 → count ≠ 0 → count.toNat * 512 ≤ buf.len → s.session = .ready → s.addressing = false →
        0x7FFFFF < sector.toNat → ∃ t, exec i s = .next t ∧ RejectedWith s t i .outOfRange))

/-! ### The whole machine -/

/-- R22 to R27, R171: the invariant of a run holds across every step, from every state that meets it. -/
def Obligations.EveryStepKeepsTheInvariant : Prop :=
  ∀ s t : State, s.Inv → step s = .next t → t.Inv

/-- R260: the reset state meets the invariant. -/
def Obligations.ResetMeetsTheInvariant : Prop := State.reset.Inv

/-- R249, R261, R210, R8: an idle block takes the first request, and its steps carry it out: bytes as the operation they
decode to, an operation as itself, and the next word of the table too, each to the state its meaning gives; an operation
of one transport call or computation with no abort path, in the step that takes it, which computations are a step of
their own being the model's choice (log entry 1). A received byte that no success case of its slot matches goes to the
rule that reads the slot (R87), idle bytes before a response included (R79), a frame the session does not send is sent
bare (R86), bytes that are no frame are refused. With no request nothing changes. The queue, and what is done with bytes
that are no unit, are the model's own (log entries 9, 11 and 13). -/
def Obligations.StepRunsTheNextRequest : Prop :=
  ∀ (s : State) (rest : List Request), s.seq = .idle →
    (s.requests = [] → step s = .next s) ∧
    (∀ i, s.requests = .start i :: rest → ∃ n, runSteps (n + 1) s = exec i { s with requests := rest }) ∧
    (∀ i, i.runsInOneStep = true → s.requests = .start i :: rest → step s = exec i { s with requests := rest }) ∧
    (∀ slot bytes i, s.requests = .wire slot bytes :: rest → decode slot bytes = .ok i →
      ∃ n, runSteps (n + 1) s = exec i { s with requests := rest }) ∧
    (∀ nbits w i, decodeTableWord nbits w = some i → ∃ n, runSteps (n + 1) (s.withFetchWord nbits w) = exec i s) ∧
    (∀ b, s.requests = .wire .token [b] :: rest → decode .token [b] = .error .notAToken →
      ∃ n, runSteps (n + 1) s = exec .pollToken { s with requests := rest, env := .ok [b] :: s.env }) ∧
    (∀ b, s.requests = .wire .dataResponse [b] :: rest → decode .dataResponse [b] = .error .notAccepted →
      ∃ n, runSteps (n + 1) s = exec .checkDataResponse { s with requests := rest, env := .ok [b] :: s.env }) ∧
    (∀ slot m, s.requests = .wire slot (List.replicate m 0xFF) :: rest →
      decode slot (List.replicate m 0xFF) = .error .busIdle →
      ∃ n, runSteps (n + 1) s = exec .pollResponse { s with requests := rest, env := idleAnswers m ++ s.env }) ∧
    (∀ slot m b more, b ≠ 0xFF → s.requests = .wire slot (List.replicate m 0xFF ++ b :: more) :: rest →
      decode slot (List.replicate m 0xFF ++ b :: more) = .error .busIdle →
      ∃ n, runSteps (n + 1) s =
        exec .pollResponse { s with requests := rest, env := idleAnswers m ++ .ok [b] :: s.env }) ∧
    (∀ bytes index, s.requests = .wire .command bytes :: rest →
      decode .command bytes = .error (.commandNotSent index) ∨ decode .command bytes = .error (.badArgument index) →
      ∃ n arg shape, runSteps (n + 1) s = exec (.sendCmd index.toNat arg shape) { s with requests := rest } ∧
        bytes = encodeFrame index.toNat arg) ∧
    (∀ slot bytes e, s.requests = .wire slot bytes :: rest → decode slot bytes = .error e →
      e = .badStartBits ∨ e = .badStopBit ∨ e = .badCrc ∨ e = .badLength bytes.length →
      step s = .refused (.undecodable e))

/-- R8, R21: every operation run one transport call or internal computation a step does exactly what its meaning says of
it run whole: the same final state, the same fault or refusal. That a meaning is stated whole is the model's choice (log
entry 1). -/
def Obligations.SequencerRunsTheWholeCall : Prop :=
  ∀ (s : State) (i : Instr), s.seq = .idle →
    ∃ n, runSteps (n + 1) { s with requests := .start i :: s.requests } = exec i s

/-- R8, R9, R65: no step makes more than one transport call, and while an operation is in progress every step goes on
and takes no request. That a sector operation run alone goes on too while `st.is_hc` holds no value, where 93 U2 also
says fault, is the model's choice (log entries 24 and 26). -/
def Obligations.EachStepMakesOneTransportCall : Prop :=
  (∀ s t : State, step s = .next t → TraceGrew 1 s t) ∧
  ∀ s : State, s.Inv → s.seq ≠ .idle →
    ∃ t, step s = .next t ∧ t.requests = s.requests ∧ t.params = s.params ∧ t.table = s.table

/-- R234, R273: an operation in progress ends, whatever the environment answers. That a sector operation run alone goes
on too while `st.is_hc` holds no value, where 93 U2 also says fault, is the model's choice (log entries 24 and 26). -/
def Obligations.EveryCallInProgressEnds : Prop :=
  ∀ s : State, s.Inv → s.seq ≠ .idle → ∃ (n : Nat) (t : State), runSteps n s = .next t ∧ t.seq = .idle

/-- R273: the transport calls of a host call are bounded by a function of the parameters and the count. -/
def Obligations.TransportCallsAreBounded : Prop :=
  ∀ (s t : State) (i : Instr) (drive : Nat) (buf : Buffer) (sector count : Word),
    i = .hostInitialize drive ∨ i = .hostRead drive buf sector count ∨ i = .hostWrite drive buf sector count →
    exec i s = .next t →
    TraceGrew (3220 * (s.params.nResp + 3) + count.toNat * (s.params.nToken + s.params.nBusy + 6) + s.params.nBusy + 10)
      s t

/-- R242, R50: whatever the environment answers, every well-formed operation answers a next state from a state that
meets the invariant; of the host calls, while none is in progress, and but for the timestamp, whose answer may be out of
range. That the operations that are no host calls are run alone, in every session state, is the model's choice (log
entries 9, 18 and 24). That address_for and the sector operations go on while `st.is_hc` holds no value, where 93 U2
also says fault, is the model's choice too (log entry 26). -/
def Obligations.WellFormedOperationsAnswer : Prop :=
  ∀ (s : State) (i : Instr), i.wellFormed = true → s.Inv →
    (i.isHostCall = true → s.seq = .idle) → i ≠ .hostTimestamp → ∃ t, exec i s = .next t

/-- R55, R58: an operation changes no byte of memory but the caller's buffer bytes it stores to, and only a read stores. -/
def Obligations.OnlyReadsStoreAndOnlyToTheBuffer : Prop :=
  ∀ (s t : State) (i : Instr), exec i s = .next t →
    (i.storesTo = none → t.mem = s.mem) ∧
    (∀ w, i.storesTo = some w → ∀ a, ¬ inStored a w → t.mem.read a = s.mem.read a)

/-- R24, R26, R27, R30, R126, R262: what no operation changes but those that the rules name: the parameters and the
requests (none), the table (build_table, reset), the addressing mode (initialization, CMD58 and its response, reset), the
clock (initialization, the clock selection, reset); READY is entered by initialization only; events are only added. The
queue of requests, and that reset keeps it with the trace and the time source's answers, are the model's choices (log
entries 13 and 15). -/
def Obligations.OnlyTheNamedOperationsWrite : Prop :=
  ∀ (s t : State) (i : Instr), exec i s = .next t →
    t.params = s.params ∧ t.requests = s.requests ∧
    (i ≠ .hostTimestamp → t.clockAnswers = s.clockAnswers) ∧
    (i ≠ .buildTable → i ≠ .resetBlock → t.table = s.table ∧ t.tableBuilt = s.tableBuilt) ∧
    (i ≠ .resetBlock → i ≠ .sessionInitialize → i ≠ .ensureReady → i.reachesSession = false → i ≠ .cmd58 →
      (∀ b w, i ≠ .r3 b w) → t.isHc = s.isHc) ∧
    (i ≠ .resetBlock → i ≠ .sessionInitialize → i ≠ .ensureReady → i.reachesSession = false →
      (∀ r, i ≠ .xferSetClock r) → t.clock = s.clock) ∧
    (t.session = .ready → s.session = .ready ∨ i = .sessionInitialize ∨ i = .ensureReady ∨ i.reachesSession = true) ∧
    (∃ es, t.trace = s.trace ++ es)
end

