-- ==== Sys2Proof/Laws/Encoding.lean ====
section
/-! SUPPORT. Byte orders, the table and the frame: what the helpers of Machine/Crc7.lean give, and how a frame decodes. -/

namespace Sys2Proof.Laws

open Sys2Proof.Machine

/-! ### Byte order -/

/-- The bytes of a word reassemble to it. -/
theorem be32_wordBytes (w : Word) : be32OfBytes (wordBytes w) = w := by
  apply BitVec.eq_of_getLsbD_eq
  intro i hi
  simp only [be32OfBytes, wordBytes, be32, List.getD_cons_zero, List.getD_cons_succ, BitVec.getLsbD_or,
    BitVec.getLsbD_shiftLeft, BitVec.getLsbD_setWidth, BitVec.getLsbD_extractLsb']
  interval_cases i <;> simp

/-- The bytes of a reassembled word are the bytes given. -/
theorem wordBytes_be32 (b1 b2 b3 b4 : Byte) : wordBytes (be32 b1 b2 b3 b4) = [b1, b2, b3, b4] := by
  simp only [wordBytes, be32]
  congr 1
  · ext i hi; simp; interval_cases i <;> simp
  · congr 1
    · ext i hi; simp; interval_cases i <;> simp
    · congr 1
      · ext i hi; simp; interval_cases i <;> simp
      · congr 1; ext i hi; simp; interval_cases i <;> simp

/-- `be32` is the concatenation of its bytes, first byte first. -/
theorem be32_eq_append (b1 b2 b3 b4 : Byte) : be32 b1 b2 b3 b4 = b1 ++ b2 ++ b3 ++ b4 := by
  apply BitVec.eq_of_getLsbD_eq
  intro i hi
  simp only [be32, BitVec.getLsbD_or, BitVec.getLsbD_shiftLeft, BitVec.getLsbD_setWidth, BitVec.getLsbD_append]
  interval_cases i <;> simp

@[simp] theorem wordBytes_length (w : Word) : (wordBytes w).length = 4 := rfl

/-! ### The table -/

/-- A cell of the built table is R100's entry of its index. -/
theorem builtTable_getElem (i : Byte) : builtTable[i.toNat] = crcEntry i := by simp [builtTable]

theorem foldWith_builtTable (crc byte : Byte) : foldWith builtTable crc byte = crcEntry (foldIndex crc byte) :=
  builtTable_getElem _

theorem crcCorrect_xor (a b : Byte) : crcCorrect (a ^^^ b) = crcCorrect a ^^^ crcCorrect b := by
  unfold crcCorrect
  rw [BitVec.getLsbD_xor]
  cases a.getLsbD 7 <;> cases b.getLsbD 7 <;> simp <;> ext i hi <;> simp <;>
    cases a[i] <;> cases b[i] <;> cases Config.crc7Poly[i] <;> rfl

theorem crcShift_xor (a b : Byte) : crcShift (a ^^^ b) = crcShift a ^^^ crcShift b := by
  unfold crcShift; rw [BitVec.shiftLeft_xor_distrib, crcCorrect_xor]

/-- The entries of the table are linear in their index. -/
theorem crcEntry_xor (a b : Byte) : crcEntry (a ^^^ b) = crcEntry a ^^^ crcEntry b := by
  unfold crcEntry
  rw [crcCorrect_xor]
  generalize crcCorrect a = x
  generalize crcCorrect b = y
  simp only [Nat.repeat, crcShift_xor]

/-! ### Frames -/

theorem frameByte0_index {index : Nat} (h : index ≤ 63) :
    (frameByte0 index).extractLsb' 6 2 = 0b01#2 ∧ (frameByte0 index).extractLsb' 0 6 = BitVec.ofNat 6 index := by
  unfold frameByte0; interval_cases index <;> decide

@[simp] theorem frameByte5_stop (crc : Byte) : (frameByte5 crc).getLsbD 0 = true := by simp [frameByte5]

/-- A frame the framer makes decodes by its index and argument. -/
theorem decode_encodeFrame {index : Nat} (h : index ≤ 63) (arg : Word) :
    decode .command (encodeFrame index arg) = decodeCommand (BitVec.ofNat 6 index) arg := by
  have hb : be32 (arg.extractLsb' 24 8) (arg.extractLsb' 16 8) (arg.extractLsb' 8 8) (arg.extractLsb' 0 8) = arg :=
    be32_wordBytes arg
  simp only [encodeFrame, frameHead, wordBytes, List.cons_append, List.nil_append, decode, decodeFrame]
  rw [(frameByte0_index h).1, (frameByte0_index h).2, frameByte5_stop, hb]
  simp

end Sys2Proof.Laws
end

