-- ==== Sys2Proof/Laws/State.lean ====
section
/-! SUPPORT. One lemma per field per state update, each true by definition, so that no later proof unfolds a record
update. -/

namespace Sys2Proof.Laws

open Sys2Proof.Machine

/-! ### `State.returning` -/

@[simp] theorem returning_session (r : Result) (s : State) : (s.returning r).session = s.session := rfl
@[simp] theorem returning_isHc (r : Result) (s : State) : (s.returning r).isHc = s.isHc := rfl
@[simp] theorem returning_lastOk (r : Result) (s : State) : (s.returning r).lastOk = s.lastOk := rfl
@[simp] theorem returning_table (r : Result) (s : State) : (s.returning r).table = s.table := rfl
@[simp] theorem returning_tableBuilt (r : Result) (s : State) : (s.returning r).tableBuilt = s.tableBuilt := rfl
@[simp] theorem returning_scratch (r : Result) (s : State) : (s.returning r).scratch = s.scratch := rfl
@[simp] theorem returning_cs (r : Result) (s : State) : (s.returning r).cs = s.cs := rfl
@[simp] theorem returning_clock (r : Result) (s : State) : (s.returning r).clock = s.clock := rfl
@[simp] theorem returning_iter (r : Result) (s : State) : (s.returning r).iter = s.iter := rfl
@[simp] theorem returning_polls (r : Result) (s : State) : (s.returning r).polls = s.polls := rfl
@[simp] theorem returning_k (r : Result) (s : State) : (s.returning r).k = s.k := rfl
@[simp] theorem returning_cause (r : Result) (s : State) : (s.returning r).cause = s.cause := rfl
@[simp] theorem returning_seq (r : Result) (s : State) : (s.returning r).seq = s.seq := rfl
@[simp] theorem returning_trace (r : Result) (s : State) : (s.returning r).trace = s.trace := rfl
@[simp] theorem returning_mem (r : Result) (s : State) : (s.returning r).mem = s.mem := rfl
@[simp] theorem returning_result (r : Result) (s : State) : (s.returning r).result = r := rfl
@[simp] theorem returning_params (r : Result) (s : State) : (s.returning r).params = s.params := rfl
@[simp] theorem returning_env (r : Result) (s : State) : (s.returning r).env = s.env := rfl
@[simp] theorem returning_clockAnswers (r : Result) (s : State) : (s.returning r).clockAnswers = s.clockAnswers := rfl
@[simp] theorem returning_requests (r : Result) (s : State) : (s.returning r).requests = s.requests := rfl
@[simp] theorem returning_free (r : Result) (s : State) : (s.returning r).free = s.free := rfl

/-! ### `State.record` -/

@[simp] theorem record_session (e : Event) (s : State) : (s.record e).session = s.session := rfl
@[simp] theorem record_isHc (e : Event) (s : State) : (s.record e).isHc = s.isHc := rfl
@[simp] theorem record_lastOk (e : Event) (s : State) : (s.record e).lastOk = s.lastOk := rfl
@[simp] theorem record_table (e : Event) (s : State) : (s.record e).table = s.table := rfl
@[simp] theorem record_tableBuilt (e : Event) (s : State) : (s.record e).tableBuilt = s.tableBuilt := rfl
@[simp] theorem record_scratch (e : Event) (s : State) : (s.record e).scratch = s.scratch := rfl
@[simp] theorem record_cs (e : Event) (s : State) : (s.record e).cs = s.cs := rfl
@[simp] theorem record_clock (e : Event) (s : State) : (s.record e).clock = s.clock := rfl
@[simp] theorem record_iter (e : Event) (s : State) : (s.record e).iter = s.iter := rfl
@[simp] theorem record_polls (e : Event) (s : State) : (s.record e).polls = s.polls := rfl
@[simp] theorem record_k (e : Event) (s : State) : (s.record e).k = s.k := rfl
@[simp] theorem record_cause (e : Event) (s : State) : (s.record e).cause = s.cause := rfl
@[simp] theorem record_seq (e : Event) (s : State) : (s.record e).seq = s.seq := rfl
@[simp] theorem record_trace (e : Event) (s : State) : (s.record e).trace = s.trace ++ [e] := rfl
@[simp] theorem record_mem (e : Event) (s : State) : (s.record e).mem = s.mem := rfl
@[simp] theorem record_result (e : Event) (s : State) : (s.record e).result = s.result := rfl
@[simp] theorem record_params (e : Event) (s : State) : (s.record e).params = s.params := rfl
@[simp] theorem record_env (e : Event) (s : State) : (s.record e).env = s.env := rfl
@[simp] theorem record_clockAnswers (e : Event) (s : State) : (s.record e).clockAnswers = s.clockAnswers := rfl
@[simp] theorem record_requests (e : Event) (s : State) : (s.record e).requests = s.requests := rfl
@[simp] theorem record_free (e : Event) (s : State) : (s.record e).free = s.free := rfl

/-! ### `State.goto` -/

@[simp] theorem goto_session (q : Seq) (s : State) : (s.goto q).session = s.session := rfl
@[simp] theorem goto_isHc (q : Seq) (s : State) : (s.goto q).isHc = s.isHc := rfl
@[simp] theorem goto_lastOk (q : Seq) (s : State) : (s.goto q).lastOk = s.lastOk := rfl
@[simp] theorem goto_table (q : Seq) (s : State) : (s.goto q).table = s.table := rfl
@[simp] theorem goto_tableBuilt (q : Seq) (s : State) : (s.goto q).tableBuilt = s.tableBuilt := rfl
@[simp] theorem goto_scratch (q : Seq) (s : State) : (s.goto q).scratch = s.scratch := rfl
@[simp] theorem goto_cs (q : Seq) (s : State) : (s.goto q).cs = s.cs := rfl
@[simp] theorem goto_clock (q : Seq) (s : State) : (s.goto q).clock = s.clock := rfl
@[simp] theorem goto_iter (q : Seq) (s : State) : (s.goto q).iter = s.iter := rfl
@[simp] theorem goto_polls (q : Seq) (s : State) : (s.goto q).polls = s.polls := rfl
@[simp] theorem goto_k (q : Seq) (s : State) : (s.goto q).k = s.k := rfl
@[simp] theorem goto_cause (q : Seq) (s : State) : (s.goto q).cause = s.cause := rfl
@[simp] theorem goto_seq (q : Seq) (s : State) : (s.goto q).seq = q := rfl
@[simp] theorem goto_trace (q : Seq) (s : State) : (s.goto q).trace = s.trace := rfl
@[simp] theorem goto_mem (q : Seq) (s : State) : (s.goto q).mem = s.mem := rfl
@[simp] theorem goto_result (q : Seq) (s : State) : (s.goto q).result = s.result := rfl
@[simp] theorem goto_params (q : Seq) (s : State) : (s.goto q).params = s.params := rfl
@[simp] theorem goto_env (q : Seq) (s : State) : (s.goto q).env = s.env := rfl
@[simp] theorem goto_clockAnswers (q : Seq) (s : State) : (s.goto q).clockAnswers = s.clockAnswers := rfl
@[simp] theorem goto_requests (q : Seq) (s : State) : (s.goto q).requests = s.requests := rfl
@[simp] theorem goto_free (q : Seq) (s : State) : (s.goto q).free = s.free := rfl

/-! ### `State.deliver` -/

@[simp] theorem deliver_session (as : List Answer) (s : State) : (s.deliver as).session = s.session := rfl
@[simp] theorem deliver_isHc (as : List Answer) (s : State) : (s.deliver as).isHc = s.isHc := rfl
@[simp] theorem deliver_lastOk (as : List Answer) (s : State) : (s.deliver as).lastOk = s.lastOk := rfl
@[simp] theorem deliver_table (as : List Answer) (s : State) : (s.deliver as).table = s.table := rfl
@[simp] theorem deliver_tableBuilt (as : List Answer) (s : State) : (s.deliver as).tableBuilt = s.tableBuilt := rfl
@[simp] theorem deliver_scratch (as : List Answer) (s : State) : (s.deliver as).scratch = s.scratch := rfl
@[simp] theorem deliver_cs (as : List Answer) (s : State) : (s.deliver as).cs = s.cs := rfl
@[simp] theorem deliver_clock (as : List Answer) (s : State) : (s.deliver as).clock = s.clock := rfl
@[simp] theorem deliver_iter (as : List Answer) (s : State) : (s.deliver as).iter = s.iter := rfl
@[simp] theorem deliver_polls (as : List Answer) (s : State) : (s.deliver as).polls = s.polls := rfl
@[simp] theorem deliver_k (as : List Answer) (s : State) : (s.deliver as).k = s.k := rfl
@[simp] theorem deliver_cause (as : List Answer) (s : State) : (s.deliver as).cause = s.cause := rfl
@[simp] theorem deliver_seq (as : List Answer) (s : State) : (s.deliver as).seq = s.seq := rfl
@[simp] theorem deliver_trace (as : List Answer) (s : State) : (s.deliver as).trace = s.trace := rfl
@[simp] theorem deliver_mem (as : List Answer) (s : State) : (s.deliver as).mem = s.mem := rfl
@[simp] theorem deliver_result (as : List Answer) (s : State) : (s.deliver as).result = s.result := rfl
@[simp] theorem deliver_params (as : List Answer) (s : State) : (s.deliver as).params = s.params := rfl
@[simp] theorem deliver_env (as : List Answer) (s : State) : (s.deliver as).env = as ++ s.env := rfl
@[simp] theorem deliver_clockAnswers (as : List Answer) (s : State) :
    (s.deliver as).clockAnswers = s.clockAnswers := rfl
@[simp] theorem deliver_requests (as : List Answer) (s : State) : (s.deliver as).requests = s.requests := rfl
@[simp] theorem deliver_free (as : List Answer) (s : State) : (s.deliver as).free = s.free := rfl

/-! ### `State.startPoll` -/

@[simp] theorem startPoll_session (s : State) : s.startPoll.session = s.session := rfl
@[simp] theorem startPoll_isHc (s : State) : s.startPoll.isHc = s.isHc := rfl
@[simp] theorem startPoll_lastOk (s : State) : s.startPoll.lastOk = s.lastOk := rfl
@[simp] theorem startPoll_table (s : State) : s.startPoll.table = s.table := rfl
@[simp] theorem startPoll_tableBuilt (s : State) : s.startPoll.tableBuilt = s.tableBuilt := rfl
@[simp] theorem startPoll_scratch (s : State) : s.startPoll.scratch = s.scratch := rfl
@[simp] theorem startPoll_cs (s : State) : s.startPoll.cs = s.cs := rfl
@[simp] theorem startPoll_clock (s : State) : s.startPoll.clock = s.clock := rfl
@[simp] theorem startPoll_iter (s : State) : s.startPoll.iter = s.iter := rfl
@[simp] theorem startPoll_polls (s : State) : s.startPoll.polls = 0 := rfl
@[simp] theorem startPoll_k (s : State) : s.startPoll.k = s.k := rfl
@[simp] theorem startPoll_cause (s : State) : s.startPoll.cause = s.cause := rfl
@[simp] theorem startPoll_seq (s : State) : s.startPoll.seq = s.seq := rfl
@[simp] theorem startPoll_trace (s : State) : s.startPoll.trace = s.trace := rfl
@[simp] theorem startPoll_mem (s : State) : s.startPoll.mem = s.mem := rfl
@[simp] theorem startPoll_result (s : State) : s.startPoll.result = s.result := rfl
@[simp] theorem startPoll_params (s : State) : s.startPoll.params = s.params := rfl
@[simp] theorem startPoll_env (s : State) : s.startPoll.env = s.env := rfl
@[simp] theorem startPoll_clockAnswers (s : State) : s.startPoll.clockAnswers = s.clockAnswers := rfl
@[simp] theorem startPoll_requests (s : State) : s.startPoll.requests = s.requests := rfl
@[simp] theorem startPoll_free (s : State) : s.startPoll.free = s.free := rfl

/-! ### `State.countPoll` -/

@[simp] theorem countPoll_session (s : State) : s.countPoll.session = s.session := rfl
@[simp] theorem countPoll_isHc (s : State) : s.countPoll.isHc = s.isHc := rfl
@[simp] theorem countPoll_lastOk (s : State) : s.countPoll.lastOk = s.lastOk := rfl
@[simp] theorem countPoll_table (s : State) : s.countPoll.table = s.table := rfl
@[simp] theorem countPoll_tableBuilt (s : State) : s.countPoll.tableBuilt = s.tableBuilt := rfl
@[simp] theorem countPoll_scratch (s : State) : s.countPoll.scratch = s.scratch := rfl
@[simp] theorem countPoll_cs (s : State) : s.countPoll.cs = s.cs := rfl
@[simp] theorem countPoll_clock (s : State) : s.countPoll.clock = s.clock := rfl
@[simp] theorem countPoll_iter (s : State) : s.countPoll.iter = s.iter := rfl
@[simp] theorem countPoll_polls (s : State) : s.countPoll.polls = s.polls + 1 := rfl
@[simp] theorem countPoll_k (s : State) : s.countPoll.k = s.k := rfl
@[simp] theorem countPoll_cause (s : State) : s.countPoll.cause = s.cause := rfl
@[simp] theorem countPoll_seq (s : State) : s.countPoll.seq = s.seq := rfl
@[simp] theorem countPoll_trace (s : State) : s.countPoll.trace = s.trace := rfl
@[simp] theorem countPoll_mem (s : State) : s.countPoll.mem = s.mem := rfl
@[simp] theorem countPoll_result (s : State) : s.countPoll.result = s.result := rfl
@[simp] theorem countPoll_params (s : State) : s.countPoll.params = s.params := rfl
@[simp] theorem countPoll_env (s : State) : s.countPoll.env = s.env := rfl
@[simp] theorem countPoll_clockAnswers (s : State) : s.countPoll.clockAnswers = s.clockAnswers := rfl
@[simp] theorem countPoll_requests (s : State) : s.countPoll.requests = s.requests := rfl
@[simp] theorem countPoll_free (s : State) : s.countPoll.free = s.free := rfl

/-! ### `State.memWrite` -/

@[simp] theorem memWrite_session (buf : Buffer) (off : Nat) (v : List Byte) (s : State) :
    (s.memWrite buf off v).session = s.session := rfl
@[simp] theorem memWrite_isHc (buf : Buffer) (off : Nat) (v : List Byte) (s : State) :
    (s.memWrite buf off v).isHc = s.isHc := rfl
@[simp] theorem memWrite_lastOk (buf : Buffer) (off : Nat) (v : List Byte) (s : State) :
    (s.memWrite buf off v).lastOk = s.lastOk := rfl
@[simp] theorem memWrite_table (buf : Buffer) (off : Nat) (v : List Byte) (s : State) :
    (s.memWrite buf off v).table = s.table := rfl
@[simp] theorem memWrite_tableBuilt (buf : Buffer) (off : Nat) (v : List Byte) (s : State) :
    (s.memWrite buf off v).tableBuilt = s.tableBuilt := rfl
@[simp] theorem memWrite_scratch (buf : Buffer) (off : Nat) (v : List Byte) (s : State) :
    (s.memWrite buf off v).scratch = s.scratch := rfl
@[simp] theorem memWrite_cs (buf : Buffer) (off : Nat) (v : List Byte) (s : State) :
    (s.memWrite buf off v).cs = s.cs := rfl
@[simp] theorem memWrite_clock (buf : Buffer) (off : Nat) (v : List Byte) (s : State) :
    (s.memWrite buf off v).clock = s.clock := rfl
@[simp] theorem memWrite_iter (buf : Buffer) (off : Nat) (v : List Byte) (s : State) :
    (s.memWrite buf off v).iter = s.iter := rfl
@[simp] theorem memWrite_polls (buf : Buffer) (off : Nat) (v : List Byte) (s : State) :
    (s.memWrite buf off v).polls = s.polls := rfl
@[simp] theorem memWrite_k (buf : Buffer) (off : Nat) (v : List Byte) (s : State) :
    (s.memWrite buf off v).k = s.k := rfl
@[simp] theorem memWrite_cause (buf : Buffer) (off : Nat) (v : List Byte) (s : State) :
    (s.memWrite buf off v).cause = s.cause := rfl
@[simp] theorem memWrite_seq (buf : Buffer) (off : Nat) (v : List Byte) (s : State) :
    (s.memWrite buf off v).seq = s.seq := rfl
@[simp] theorem memWrite_trace (buf : Buffer) (off : Nat) (v : List Byte) (s : State) :
    (s.memWrite buf off v).trace = s.trace := rfl
@[simp] theorem memWrite_mem (buf : Buffer) (off : Nat) (v : List Byte) (s : State) :
    (s.memWrite buf off v).mem = s.mem.writeBytes (buf.base + off) v := rfl
@[simp] theorem memWrite_result (buf : Buffer) (off : Nat) (v : List Byte) (s : State) :
    (s.memWrite buf off v).result = s.result := rfl
@[simp] theorem memWrite_params (buf : Buffer) (off : Nat) (v : List Byte) (s : State) :
    (s.memWrite buf off v).params = s.params := rfl
@[simp] theorem memWrite_env (buf : Buffer) (off : Nat) (v : List Byte) (s : State) :
    (s.memWrite buf off v).env = s.env := rfl
@[simp] theorem memWrite_clockAnswers (buf : Buffer) (off : Nat) (v : List Byte) (s : State) :
    (s.memWrite buf off v).clockAnswers = s.clockAnswers := rfl
@[simp] theorem memWrite_requests (buf : Buffer) (off : Nat) (v : List Byte) (s : State) :
    (s.memWrite buf off v).requests = s.requests := rfl
@[simp] theorem memWrite_free (buf : Buffer) (off : Nat) (v : List Byte) (s : State) :
    (s.memWrite buf off v).free = s.free := rfl

/-! ### `State.scrub` -/

@[simp] theorem scrub_session (buf : Buffer) (count : Word) (s : State) : (s.scrub buf count).session = s.session := rfl
@[simp] theorem scrub_isHc (buf : Buffer) (count : Word) (s : State) : (s.scrub buf count).isHc = s.isHc := rfl
@[simp] theorem scrub_lastOk (buf : Buffer) (count : Word) (s : State) : (s.scrub buf count).lastOk = s.lastOk := rfl
@[simp] theorem scrub_table (buf : Buffer) (count : Word) (s : State) : (s.scrub buf count).table = s.table := rfl
@[simp] theorem scrub_tableBuilt (buf : Buffer) (count : Word) (s : State) :
    (s.scrub buf count).tableBuilt = s.tableBuilt := rfl
@[simp] theorem scrub_scratch (buf : Buffer) (count : Word) (s : State) : (s.scrub buf count).scratch = s.scratch := rfl
@[simp] theorem scrub_cs (buf : Buffer) (count : Word) (s : State) : (s.scrub buf count).cs = s.cs := rfl
@[simp] theorem scrub_clock (buf : Buffer) (count : Word) (s : State) : (s.scrub buf count).clock = s.clock := rfl
@[simp] theorem scrub_iter (buf : Buffer) (count : Word) (s : State) : (s.scrub buf count).iter = s.iter := rfl
@[simp] theorem scrub_polls (buf : Buffer) (count : Word) (s : State) : (s.scrub buf count).polls = s.polls := rfl
@[simp] theorem scrub_k (buf : Buffer) (count : Word) (s : State) : (s.scrub buf count).k = s.k := rfl
@[simp] theorem scrub_cause (buf : Buffer) (count : Word) (s : State) : (s.scrub buf count).cause = s.cause := rfl
@[simp] theorem scrub_seq (buf : Buffer) (count : Word) (s : State) : (s.scrub buf count).seq = s.seq := rfl
@[simp] theorem scrub_trace (buf : Buffer) (count : Word) (s : State) : (s.scrub buf count).trace = s.trace := rfl
@[simp] theorem scrub_mem (buf : Buffer) (count : Word) (s : State) :
    (s.scrub buf count).mem = s.mem.writeBytes buf.base
      ((List.range (min buf.len (count.toNat * Config.sectorSize))).map (Config.bufferByte s.free)) := rfl
@[simp] theorem scrub_result (buf : Buffer) (count : Word) (s : State) : (s.scrub buf count).result = s.result := rfl
@[simp] theorem scrub_params (buf : Buffer) (count : Word) (s : State) : (s.scrub buf count).params = s.params := rfl
@[simp] theorem scrub_env (buf : Buffer) (count : Word) (s : State) : (s.scrub buf count).env = s.env := rfl
@[simp] theorem scrub_clockAnswers (buf : Buffer) (count : Word) (s : State) :
    (s.scrub buf count).clockAnswers = s.clockAnswers := rfl
@[simp] theorem scrub_requests (buf : Buffer) (count : Word) (s : State) :
    (s.scrub buf count).requests = s.requests := rfl
@[simp] theorem scrub_free (buf : Buffer) (count : Word) (s : State) : (s.scrub buf count).free = s.free + 1 := rfl

/-! ### `State.retireCounters` -/

@[simp] theorem retireCounters_session (s : State) : s.retireCounters.session = s.session := rfl
@[simp] theorem retireCounters_isHc (s : State) : s.retireCounters.isHc = s.isHc := rfl
@[simp] theorem retireCounters_lastOk (s : State) : s.retireCounters.lastOk = s.lastOk := rfl
@[simp] theorem retireCounters_table (s : State) : s.retireCounters.table = s.table := rfl
@[simp] theorem retireCounters_tableBuilt (s : State) : s.retireCounters.tableBuilt = s.tableBuilt := rfl
@[simp] theorem retireCounters_scratch (s : State) : s.retireCounters.scratch = s.scratch := rfl
@[simp] theorem retireCounters_cs (s : State) : s.retireCounters.cs = s.cs := rfl
@[simp] theorem retireCounters_clock (s : State) : s.retireCounters.clock = s.clock := rfl
@[simp] theorem retireCounters_iter (s : State) : s.retireCounters.iter = Config.deadCounter s.free 0 := rfl
@[simp] theorem retireCounters_polls (s : State) : s.retireCounters.polls = Config.deadCounter s.free 1 := rfl
@[simp] theorem retireCounters_k (s : State) : s.retireCounters.k = Config.deadCounter s.free 2 := rfl
@[simp] theorem retireCounters_cause (s : State) : s.retireCounters.cause = s.cause := rfl
@[simp] theorem retireCounters_seq (s : State) : s.retireCounters.seq = s.seq := rfl
@[simp] theorem retireCounters_trace (s : State) : s.retireCounters.trace = s.trace := rfl
@[simp] theorem retireCounters_mem (s : State) : s.retireCounters.mem = s.mem := rfl
@[simp] theorem retireCounters_result (s : State) : s.retireCounters.result = s.result := rfl
@[simp] theorem retireCounters_params (s : State) : s.retireCounters.params = s.params := rfl
@[simp] theorem retireCounters_env (s : State) : s.retireCounters.env = s.env := rfl
@[simp] theorem retireCounters_clockAnswers (s : State) : s.retireCounters.clockAnswers = s.clockAnswers := rfl
@[simp] theorem retireCounters_requests (s : State) : s.retireCounters.requests = s.requests := rfl
@[simp] theorem retireCounters_free (s : State) : s.retireCounters.free = s.free + 1 := rfl

/-! ### `State.settleOk` -/

@[simp] theorem settleOk_session (s : State) : s.settleOk.session = s.session := rfl
@[simp] theorem settleOk_isHc (s : State) : s.settleOk.isHc = s.isHc := rfl
@[simp] theorem settleOk_lastOk (s : State) : s.settleOk.lastOk = true := rfl
@[simp] theorem settleOk_table (s : State) : s.settleOk.table = s.table := rfl
@[simp] theorem settleOk_tableBuilt (s : State) : s.settleOk.tableBuilt = s.tableBuilt := rfl
@[simp] theorem settleOk_scratch (s : State) : s.settleOk.scratch = s.scratch := rfl
@[simp] theorem settleOk_cs (s : State) : s.settleOk.cs = s.cs := rfl
@[simp] theorem settleOk_clock (s : State) : s.settleOk.clock = s.clock := rfl
@[simp] theorem settleOk_iter (s : State) : s.settleOk.iter = Config.deadCounter s.free 0 := rfl
@[simp] theorem settleOk_polls (s : State) : s.settleOk.polls = Config.deadCounter s.free 1 := rfl
@[simp] theorem settleOk_k (s : State) : s.settleOk.k = Config.deadCounter s.free 2 := rfl
@[simp] theorem settleOk_cause (s : State) : s.settleOk.cause = s.cause := rfl
@[simp] theorem settleOk_seq (s : State) : s.settleOk.seq = .idle := rfl
@[simp] theorem settleOk_trace (s : State) : s.settleOk.trace = s.trace := rfl
@[simp] theorem settleOk_mem (s : State) : s.settleOk.mem = s.mem := rfl
@[simp] theorem settleOk_result (s : State) : s.settleOk.result = s.result := rfl
@[simp] theorem settleOk_params (s : State) : s.settleOk.params = s.params := rfl
@[simp] theorem settleOk_env (s : State) : s.settleOk.env = s.env := rfl
@[simp] theorem settleOk_clockAnswers (s : State) : s.settleOk.clockAnswers = s.clockAnswers := rfl
@[simp] theorem settleOk_requests (s : State) : s.settleOk.requests = s.requests := rfl
@[simp] theorem settleOk_free (s : State) : s.settleOk.free = s.free + 1 := rfl

/-! ### `State.raised` -/

@[simp] theorem raised_session (cl : AbortCause → Seq) (c : AbortCause) (s : State) :
    (s.raised cl c).session = s.session := rfl
@[simp] theorem raised_isHc (cl : AbortCause → Seq) (c : AbortCause) (s : State) : (s.raised cl c).isHc = s.isHc := rfl
@[simp] theorem raised_lastOk (cl : AbortCause → Seq) (c : AbortCause) (s : State) :
    (s.raised cl c).lastOk = s.lastOk := rfl
@[simp] theorem raised_table (cl : AbortCause → Seq) (c : AbortCause) (s : State) :
    (s.raised cl c).table = s.table := rfl
@[simp] theorem raised_tableBuilt (cl : AbortCause → Seq) (c : AbortCause) (s : State) :
    (s.raised cl c).tableBuilt = s.tableBuilt := rfl
@[simp] theorem raised_scratch (cl : AbortCause → Seq) (c : AbortCause) (s : State) :
    (s.raised cl c).scratch = s.scratch := rfl
@[simp] theorem raised_cs (cl : AbortCause → Seq) (c : AbortCause) (s : State) : (s.raised cl c).cs = s.cs := rfl
@[simp] theorem raised_clock (cl : AbortCause → Seq) (c : AbortCause) (s : State) :
    (s.raised cl c).clock = s.clock := rfl
@[simp] theorem raised_iter (cl : AbortCause → Seq) (c : AbortCause) (s : State) : (s.raised cl c).iter = s.iter := rfl
@[simp] theorem raised_polls (cl : AbortCause → Seq) (c : AbortCause) (s : State) :
    (s.raised cl c).polls = s.polls := rfl
@[simp] theorem raised_k (cl : AbortCause → Seq) (c : AbortCause) (s : State) : (s.raised cl c).k = s.k := rfl
@[simp] theorem raised_cause (cl : AbortCause → Seq) (c : AbortCause) (s : State) :
    (s.raised cl c).cause = some c := rfl
@[simp] theorem raised_seq (cl : AbortCause → Seq) (c : AbortCause) (s : State) : (s.raised cl c).seq = cl c := rfl
@[simp] theorem raised_trace (cl : AbortCause → Seq) (c : AbortCause) (s : State) :
    (s.raised cl c).trace = s.trace := rfl
@[simp] theorem raised_mem (cl : AbortCause → Seq) (c : AbortCause) (s : State) : (s.raised cl c).mem = s.mem := rfl
@[simp] theorem raised_result (cl : AbortCause → Seq) (c : AbortCause) (s : State) :
    (s.raised cl c).result = s.result := rfl
@[simp] theorem raised_params (cl : AbortCause → Seq) (c : AbortCause) (s : State) :
    (s.raised cl c).params = s.params := rfl
@[simp] theorem raised_env (cl : AbortCause → Seq) (c : AbortCause) (s : State) : (s.raised cl c).env = s.env := rfl
@[simp] theorem raised_clockAnswers (cl : AbortCause → Seq) (c : AbortCause) (s : State) :
    (s.raised cl c).clockAnswers = s.clockAnswers := rfl
@[simp] theorem raised_requests (cl : AbortCause → Seq) (c : AbortCause) (s : State) :
    (s.raised cl c).requests = s.requests := rfl
@[simp] theorem raised_free (cl : AbortCause → Seq) (c : AbortCause) (s : State) : (s.raised cl c).free = s.free := rfl

/-! ### `State.returnCall` -/

@[simp] theorem returnCall_session (r : Result) (s : State) : (s.returnCall r).session = s.session := rfl
@[simp] theorem returnCall_isHc (r : Result) (s : State) : (s.returnCall r).isHc = s.isHc := rfl
@[simp] theorem returnCall_lastOk (r : Result) (s : State) : (s.returnCall r).lastOk = s.lastOk := rfl
@[simp] theorem returnCall_table (r : Result) (s : State) : (s.returnCall r).table = s.table := rfl
@[simp] theorem returnCall_tableBuilt (r : Result) (s : State) : (s.returnCall r).tableBuilt = s.tableBuilt := rfl
@[simp] theorem returnCall_scratch (r : Result) (s : State) : (s.returnCall r).scratch = s.scratch := rfl
@[simp] theorem returnCall_cs (r : Result) (s : State) : (s.returnCall r).cs = s.cs := rfl
@[simp] theorem returnCall_clock (r : Result) (s : State) : (s.returnCall r).clock = s.clock := rfl
@[simp] theorem returnCall_iter (r : Result) (s : State) : (s.returnCall r).iter = s.iter := rfl
@[simp] theorem returnCall_polls (r : Result) (s : State) : (s.returnCall r).polls = s.polls := rfl
@[simp] theorem returnCall_k (r : Result) (s : State) : (s.returnCall r).k = s.k := rfl
@[simp] theorem returnCall_cause (r : Result) (s : State) : (s.returnCall r).cause = s.cause := rfl
@[simp] theorem returnCall_seq (r : Result) (s : State) : (s.returnCall r).seq = .idle := rfl
@[simp] theorem returnCall_trace (r : Result) (s : State) : (s.returnCall r).trace = s.trace := rfl
@[simp] theorem returnCall_mem (r : Result) (s : State) : (s.returnCall r).mem = s.mem := rfl
@[simp] theorem returnCall_result (r : Result) (s : State) : (s.returnCall r).result = r := rfl
@[simp] theorem returnCall_params (r : Result) (s : State) : (s.returnCall r).params = s.params := rfl
@[simp] theorem returnCall_env (r : Result) (s : State) : (s.returnCall r).env = s.env := rfl
@[simp] theorem returnCall_clockAnswers (r : Result) (s : State) : (s.returnCall r).clockAnswers = s.clockAnswers := rfl
@[simp] theorem returnCall_requests (r : Result) (s : State) : (s.returnCall r).requests = s.requests := rfl
@[simp] theorem returnCall_free (r : Result) (s : State) : (s.returnCall r).free = s.free := rfl

/-! ### `State.buildTable` -/

@[simp] theorem buildTable_session (s : State) : s.buildTable.session = s.session := by simp only [State.buildTable]
@[simp] theorem buildTable_isHc (s : State) : s.buildTable.isHc = s.isHc := by simp only [State.buildTable]
@[simp] theorem buildTable_lastOk (s : State) : s.buildTable.lastOk = s.lastOk := by simp only [State.buildTable]
@[simp] theorem buildTable_table (s : State) : s.buildTable.table = builtTable := by simp only [State.buildTable]
@[simp] theorem buildTable_tableBuilt (s : State) : s.buildTable.tableBuilt = true := by simp only [State.buildTable]
@[simp] theorem buildTable_scratch (s : State) : s.buildTable.scratch = s.scratch := by simp only [State.buildTable]
@[simp] theorem buildTable_cs (s : State) : s.buildTable.cs = s.cs := by simp only [State.buildTable]
@[simp] theorem buildTable_clock (s : State) : s.buildTable.clock = s.clock := by simp only [State.buildTable]
@[simp] theorem buildTable_iter (s : State) : s.buildTable.iter = s.iter := by simp only [State.buildTable]
@[simp] theorem buildTable_polls (s : State) : s.buildTable.polls = s.polls := by simp only [State.buildTable]
@[simp] theorem buildTable_k (s : State) : s.buildTable.k = s.k := by simp only [State.buildTable]
@[simp] theorem buildTable_cause (s : State) : s.buildTable.cause = s.cause := by simp only [State.buildTable]
@[simp] theorem buildTable_seq (s : State) : s.buildTable.seq = s.seq := by simp only [State.buildTable]
@[simp] theorem buildTable_trace (s : State) : s.buildTable.trace = s.trace := by simp only [State.buildTable]
@[simp] theorem buildTable_mem (s : State) : s.buildTable.mem = s.mem := by simp only [State.buildTable]
@[simp] theorem buildTable_result (s : State) : s.buildTable.result = s.result := by simp only [State.buildTable]
@[simp] theorem buildTable_params (s : State) : s.buildTable.params = s.params := by simp only [State.buildTable]
@[simp] theorem buildTable_env (s : State) : s.buildTable.env = s.env := by simp only [State.buildTable]
@[simp] theorem buildTable_clockAnswers (s : State) : s.buildTable.clockAnswers = s.clockAnswers := by simp only [State.buildTable]
@[simp] theorem buildTable_requests (s : State) : s.buildTable.requests = s.requests := by simp only [State.buildTable]
@[simp] theorem buildTable_free (s : State) : s.buildTable.free = s.free := by simp only [State.buildTable]

/-! ### `State.withFetchWord` -/

@[simp] theorem withFetchWord_session (n w : Nat) (s : State) : (s.withFetchWord n w).session = s.session := rfl
@[simp] theorem withFetchWord_isHc (n w : Nat) (s : State) : (s.withFetchWord n w).isHc = s.isHc := rfl
@[simp] theorem withFetchWord_lastOk (n w : Nat) (s : State) : (s.withFetchWord n w).lastOk = s.lastOk := rfl
@[simp] theorem withFetchWord_table (n w : Nat) (s : State) : (s.withFetchWord n w).table = s.table := rfl
@[simp] theorem withFetchWord_tableBuilt (n w : Nat) (s : State) :
    (s.withFetchWord n w).tableBuilt = s.tableBuilt := rfl
@[simp] theorem withFetchWord_scratch (n w : Nat) (s : State) : (s.withFetchWord n w).scratch = s.scratch := rfl
@[simp] theorem withFetchWord_cs (n w : Nat) (s : State) : (s.withFetchWord n w).cs = s.cs := rfl
@[simp] theorem withFetchWord_clock (n w : Nat) (s : State) : (s.withFetchWord n w).clock = s.clock := rfl
@[simp] theorem withFetchWord_iter (n w : Nat) (s : State) : (s.withFetchWord n w).iter = s.iter := rfl
@[simp] theorem withFetchWord_polls (n w : Nat) (s : State) : (s.withFetchWord n w).polls = s.polls := rfl
@[simp] theorem withFetchWord_k (n w : Nat) (s : State) : (s.withFetchWord n w).k = s.k := rfl
@[simp] theorem withFetchWord_cause (n w : Nat) (s : State) : (s.withFetchWord n w).cause = s.cause := rfl
@[simp] theorem withFetchWord_seq (n w : Nat) (s : State) : (s.withFetchWord n w).seq = .idle := rfl
@[simp] theorem withFetchWord_trace (n w : Nat) (s : State) : (s.withFetchWord n w).trace = s.trace := rfl
@[simp] theorem withFetchWord_mem (n w : Nat) (s : State) : (s.withFetchWord n w).mem = s.mem := rfl
@[simp] theorem withFetchWord_result (n w : Nat) (s : State) : (s.withFetchWord n w).result = s.result := rfl
@[simp] theorem withFetchWord_params (n w : Nat) (s : State) : (s.withFetchWord n w).params = s.params := rfl
@[simp] theorem withFetchWord_env (n w : Nat) (s : State) : (s.withFetchWord n w).env = s.env := rfl
@[simp] theorem withFetchWord_clockAnswers (n w : Nat) (s : State) :
    (s.withFetchWord n w).clockAnswers = s.clockAnswers := rfl
@[simp] theorem withFetchWord_requests (n w : Nat) (s : State) :
    (s.withFetchWord n w).requests = .wire .unclassified (tableBytes n w) :: s.requests := rfl
@[simp] theorem withFetchWord_free (n w : Nat) (s : State) : (s.withFetchWord n w).free = s.free := rfl

end Sys2Proof.Laws
end

