-- ==== Sys2Proof/Laws/Ops.lean ====
section
/-! SUPPORT. What each shared operation of Machine/Ops.lean can do, said once: the answers of the environment, one
transport call, and how operations that can stop are chained. -/

namespace Sys2Proof.Laws

open Sys2Proof.Machine

/-! ### Answers -/

@[simp] theorem fitBytes_length (n c : Nat) (bs : List Byte) : (fitBytes n c bs).length = n := by
  simp [fitBytes]; omega

/-- An answer of exactly the bytes asked for is given as it is. -/
theorem fitBytes_exact {n c : Nat} {bs : List Byte} (h : bs.length = n) : fitBytes n c bs = bs := by
  simp [fitBytes, h]

@[simp] theorem fitBytes_one (c : Nat) (b : Byte) : fitBytes 1 c [b] = [b] := fitBytes_exact rfl

@[simp] theorem fitBytes_zero (c : Nat) (bs : List Byte) : fitBytes 0 c bs = [] := by simp [fitBytes]

/-- The state after one answered transfer: chip-select by the policy, the event recorded, the answers left, scratch and
the free-value counter moved on; nothing else. -/
def State.exchanged (pol : Policy) (ok : Bool) (e : Event) (rest : List Answer) (s : State) : State :=
  { s with env := rest, free := s.free + 1, trace := s.trace ++ [e], cs := csAfter pol ok (csBefore pol s.cs),
           scratch := Config.scratchAfter s.free }

section exchanged
variable (pol : Policy) (ok : Bool) (e : Event) (rest : List Answer) (s : State)
@[simp] theorem exchanged_session : (State.exchanged pol ok e rest s).session = s.session := rfl
@[simp] theorem exchanged_isHc : (State.exchanged pol ok e rest s).isHc = s.isHc := rfl
@[simp] theorem exchanged_lastOk : (State.exchanged pol ok e rest s).lastOk = s.lastOk := rfl
@[simp] theorem exchanged_table : (State.exchanged pol ok e rest s).table = s.table := rfl
@[simp] theorem exchanged_tableBuilt : (State.exchanged pol ok e rest s).tableBuilt = s.tableBuilt := rfl
@[simp] theorem exchanged_scratch : (State.exchanged pol ok e rest s).scratch = Config.scratchAfter s.free := rfl
@[simp] theorem exchanged_cs : (State.exchanged pol ok e rest s).cs = csAfter pol ok (csBefore pol s.cs) := rfl
@[simp] theorem exchanged_clock : (State.exchanged pol ok e rest s).clock = s.clock := rfl
@[simp] theorem exchanged_iter : (State.exchanged pol ok e rest s).iter = s.iter := rfl
@[simp] theorem exchanged_polls : (State.exchanged pol ok e rest s).polls = s.polls := rfl
@[simp] theorem exchanged_k : (State.exchanged pol ok e rest s).k = s.k := rfl
@[simp] theorem exchanged_cause : (State.exchanged pol ok e rest s).cause = s.cause := rfl
@[simp] theorem exchanged_seq : (State.exchanged pol ok e rest s).seq = s.seq := rfl
@[simp] theorem exchanged_trace : (State.exchanged pol ok e rest s).trace = s.trace ++ [e] := rfl
@[simp] theorem exchanged_mem : (State.exchanged pol ok e rest s).mem = s.mem := rfl
@[simp] theorem exchanged_result : (State.exchanged pol ok e rest s).result = s.result := rfl
@[simp] theorem exchanged_params : (State.exchanged pol ok e rest s).params = s.params := rfl
@[simp] theorem exchanged_env : (State.exchanged pol ok e rest s).env = rest := rfl
@[simp] theorem exchanged_clockAnswers : (State.exchanged pol ok e rest s).clockAnswers = s.clockAnswers := rfl
@[simp] theorem exchanged_requests : (State.exchanged pol ok e rest s).requests = s.requests := rfl
@[simp] theorem exchanged_free : (State.exchanged pol ok e rest s).free = s.free + 1 := rfl
end exchanged

@[simp] theorem csAfter_fail (pol : Policy) (cs : ChipSelect) : csAfter pol false cs = .unknown := rfl
@[simp] theorem csAfter_none (cs : ChipSelect) : csAfter .none true cs = cs := rfl
@[simp] theorem csAfter_assert (cs : ChipSelect) : csAfter .assert true cs = cs := rfl
@[simp] theorem csAfter_deassert (cs : ChipSelect) : csAfter .deassert true cs = .deasserted := rfl
@[simp] theorem csBefore_none (cs : ChipSelect) : csBefore .none cs = cs := rfl
@[simp] theorem csBefore_assert (cs : ChipSelect) : csBefore .assert cs = .asserted := rfl
@[simp] theorem csBefore_deassert (cs : ChipSelect) : csBefore .deassert cs = cs := rfl

theorem nextAnswer_ok {n : Nat} {s : State} {bs : List Byte} {rest : List Answer} (h : s.env = .ok bs :: rest) :
    s.nextAnswer n = (some (fitBytes n s.free bs), { s with env := rest, free := s.free + 1 }) := by
  simp [State.nextAnswer, h]

theorem nextAnswer_fail {n : Nat} {s : State} {rest : List Answer} (h : s.env = .fail :: rest) :
    s.nextAnswer n = (none, { s with env := rest, free := s.free + 1 }) := by
  simp [State.nextAnswer, h]

/-- All that an answer can be: FAIL or exactly `n` bytes, one listed answer used up. -/
theorem nextAnswer_cases (n : Nat) (s : State) :
    ∃ a, s.nextAnswer n = (a, { s with env := s.env.tail, free := s.free + 1 }) ∧ ∀ bs, a = some bs → bs.length = n := by
  unfold State.nextAnswer
  split
  · rename_i h; exact ⟨none, by simp [h], by simp⟩
  · rename_i h; exact ⟨_, by rw [h]; rfl, by simp⟩
  · rename_i h
    refine ⟨_, by rw [h]; rfl, ?_⟩
    intro bs hbs
    split at hbs <;> simp_all
    rw [← hbs]; simp

/-! ### One transport call -/

theorem exchange_ok {n : Nat} {pol : Policy} {ev : Option (List Byte) → Event} {s : State} {bs : List Byte}
    {rest : List Answer} (h : s.env = .ok bs :: rest) :
    s.exchange n pol ev =
      (some (fitBytes n s.free bs), State.exchanged pol true (ev (some (fitBytes n s.free bs))) rest s) := by
  have h' : ({ s with cs := csBefore pol s.cs } : State).env = .ok bs :: rest := h
  simp [State.exchange, nextAnswer_ok h', State.exchanged, State.record]

theorem exchange_fail {n : Nat} {pol : Policy} {ev : Option (List Byte) → Event} {s : State} {rest : List Answer}
    (h : s.env = .fail :: rest) : s.exchange n pol ev = (none, State.exchanged pol false (ev none) rest s) := by
  have h' : ({ s with cs := csBefore pol s.cs } : State).env = .fail :: rest := h
  simp [State.exchange, nextAnswer_fail h', State.exchanged, State.record]

/-- All that a transfer can do. -/
theorem exchange_cases (n : Nat) (pol : Policy) (ev : Option (List Byte) → Event) (s : State) :
    ∃ a, s.exchange n pol ev = (a, State.exchanged pol a.isSome (ev a) s.env.tail s) ∧
      ∀ bs, a = some bs → bs.length = n := by
  obtain ⟨a, h, hl⟩ := nextAnswer_cases n ({ s with cs := csBefore pol s.cs } : State)
  exact ⟨a, by simp [State.exchange, h, State.exchanged, State.record], hl⟩

theorem xferWrite_ok {bytes : List Byte} {pol : Policy} {s : State} {bs : List Byte} {rest : List Answer}
    (h : s.env = .ok bs :: rest) :
    xferWrite bytes pol s = (true, State.exchanged pol true (.write bytes pol true) rest s) := by
  simp [xferWrite, exchange_ok h]

theorem xferWrite_fail {bytes : List Byte} {pol : Policy} {s : State} {rest : List Answer} (h : s.env = .fail :: rest) :
    xferWrite bytes pol s = (false, State.exchanged pol false (.write bytes pol false) rest s) := by
  simp [xferWrite, exchange_fail h]

/-- All that a write can do (R121). -/
theorem xferWrite_cases (bytes : List Byte) (pol : Policy) (s : State) :
    ∃ ok, xferWrite bytes pol s = (ok, State.exchanged pol ok (.write bytes pol ok) s.env.tail s) := by
  obtain ⟨a, h, -⟩ := exchange_cases 0 pol (fun a => .write bytes pol a.isSome) s
  exact ⟨a.isSome, by simp [xferWrite, h]⟩

theorem xferRead_ok {n : Nat} {pol : Policy} {s : State} {bs : List Byte} {rest : List Answer}
    (h : s.env = .ok bs :: rest) (hl : bs.length = n) :
    xferRead n pol s = (some bs, State.exchanged pol true (.read n pol (some bs)) rest s) := by
  simp [xferRead, exchange_ok h, fitBytes_exact hl]

theorem xferRead_fail {n : Nat} {pol : Policy} {s : State} {rest : List Answer} (h : s.env = .fail :: rest) :
    xferRead n pol s = (none, State.exchanged pol false (.read n pol none) rest s) := by
  simp [xferRead, exchange_fail h]

/-- All that a read can do (R122). -/
theorem xferRead_cases (n : Nat) (pol : Policy) (s : State) :
    ∃ a, xferRead n pol s = (a, State.exchanged pol a.isSome (.read n pol a) s.env.tail s) ∧
      ∀ bs, a = some bs → bs.length = n := exchange_cases n pol _ s

/-- All that a simultaneous read and write can do (R123). -/
theorem xferReadWrite_cases (out : List Byte) (pol : Policy) (s : State) :
    ∃ a, xferReadWrite out pol s = (a, State.exchanged pol a.isSome (.readWrite out pol a) s.env.tail s) ∧
      ∀ bs, a = some bs → bs.length = out.length := exchange_cases out.length pol _ s

/-- The state after an answered clock selection (R124). -/
def State.clocked (rate : Rate) (ok : Bool) (rest : List Answer) (s : State) : State :=
  { s with env := rest, free := s.free + 1, trace := s.trace ++ [.setClock rate ok],
           clock := if ok then .at rate else .unknown }

section clocked
variable (rate : Rate) (ok : Bool) (rest : List Answer) (s : State)
@[simp] theorem clocked_session : (State.clocked rate ok rest s).session = s.session := rfl
@[simp] theorem clocked_isHc : (State.clocked rate ok rest s).isHc = s.isHc := rfl
@[simp] theorem clocked_lastOk : (State.clocked rate ok rest s).lastOk = s.lastOk := rfl
@[simp] theorem clocked_table : (State.clocked rate ok rest s).table = s.table := rfl
@[simp] theorem clocked_tableBuilt : (State.clocked rate ok rest s).tableBuilt = s.tableBuilt := rfl
@[simp] theorem clocked_scratch : (State.clocked rate ok rest s).scratch = s.scratch := rfl
@[simp] theorem clocked_cs : (State.clocked rate ok rest s).cs = s.cs := rfl
@[simp] theorem clocked_clock : (State.clocked rate ok rest s).clock = if ok then .at rate else .unknown := rfl
@[simp] theorem clocked_iter : (State.clocked rate ok rest s).iter = s.iter := rfl
@[simp] theorem clocked_polls : (State.clocked rate ok rest s).polls = s.polls := rfl
@[simp] theorem clocked_k : (State.clocked rate ok rest s).k = s.k := rfl
@[simp] theorem clocked_cause : (State.clocked rate ok rest s).cause = s.cause := rfl
@[simp] theorem clocked_seq : (State.clocked rate ok rest s).seq = s.seq := rfl
@[simp] theorem clocked_trace : (State.clocked rate ok rest s).trace = s.trace ++ [.setClock rate ok] := rfl
@[simp] theorem clocked_mem : (State.clocked rate ok rest s).mem = s.mem := rfl
@[simp] theorem clocked_result : (State.clocked rate ok rest s).result = s.result := rfl
@[simp] theorem clocked_params : (State.clocked rate ok rest s).params = s.params := rfl
@[simp] theorem clocked_env : (State.clocked rate ok rest s).env = rest := rfl
@[simp] theorem clocked_clockAnswers : (State.clocked rate ok rest s).clockAnswers = s.clockAnswers := rfl
@[simp] theorem clocked_requests : (State.clocked rate ok rest s).requests = s.requests := rfl
@[simp] theorem clocked_free : (State.clocked rate ok rest s).free = s.free + 1 := rfl
end clocked

theorem xferSetClock_ok {rate : Rate} {s : State} {bs : List Byte} {rest : List Answer} (h : s.env = .ok bs :: rest) :
    xferSetClock rate s = (true, State.clocked rate true rest s) := by
  simp [xferSetClock, nextAnswer_ok h, State.clocked, State.record]

theorem xferSetClock_fail {rate : Rate} {s : State} {rest : List Answer} (h : s.env = .fail :: rest) :
    xferSetClock rate s = (false, State.clocked rate false rest s) := by
  simp [xferSetClock, nextAnswer_fail h, State.clocked, State.record]

/-- All that a clock selection can do (R124). -/
theorem xferSetClock_cases (rate : Rate) (s : State) :
    ∃ ok, xferSetClock rate s = (ok, State.clocked rate ok s.env.tail s) := by
  obtain ⟨a, h, -⟩ := nextAnswer_cases 0 s
  exact ⟨a.isSome, by simp [xferSetClock, h, State.clocked, State.record]⟩

/-! ### Chaining -/

@[simp] theorem op_pure {α : Type} (a : α) (s : State) : (pure a : Op α) s = .ok a s := rfl
@[simp] theorem op_get (s : State) : (get : Op State) s = .ok s s := rfl
@[simp] theorem op_update (f : State → State) (s : State) : update f s = .ok () (f s) := rfl
@[simp] theorem op_raise {α : Type} (c : AbortCause) (s : State) : (raise c : Op α) s = .error (.abort c) s := rfl
@[simp] theorem op_refuse {α : Type} (r : Refusal) (s : State) : (refuse r : Op α) s = .error (.refuse r) s := rfl
@[simp] theorem op_abortOn_none (s : State) : abortOn none s = .ok () s := rfl
@[simp] theorem op_abortOn_some (c : AbortCause) (s : State) : abortOn (some c) s = .error (.abort c) s := rfl

/-- What a chain does when its first part goes on. -/
theorem op_bind_ok {α β : Type} {x : Op α} {f : α → Op β} {s t : State} {a : α} (h : x s = .ok a t) :
    (x >>= f) s = f a t := by
  simp [bind, EStateM.bind, h]

/-- What a chain does when its first part stops. -/
theorem op_bind_error {α β : Type} {x : Op α} {f : α → Op β} {s t : State} {e : Stop} (h : x s = .error e t) :
    (x >>= f) s = .error e t := by
  simp [bind, EStateM.bind, h]

theorem writeOrAbort_ok {bytes : List Byte} {pol : Policy} {s : State} {bs : List Byte} {rest : List Answer}
    (h : s.env = .ok bs :: rest) :
    writeOrAbort bytes pol s = .ok () (State.exchanged pol true (.write bytes pol true) rest s) := by
  simp [writeOrAbort, xferWrite_ok h]

theorem writeOrAbort_fail {bytes : List Byte} {pol : Policy} {s : State} {rest : List Answer}
    (h : s.env = .fail :: rest) :
    writeOrAbort bytes pol s = .error (.abort .transport) (State.exchanged pol false (.write bytes pol false) rest s) := by
  simp [writeOrAbort, xferWrite_fail h]

theorem readOrAbort_ok {n : Nat} {pol : Policy} {s : State} {bs : List Byte} {rest : List Answer}
    (h : s.env = .ok bs :: rest) (hl : bs.length = n) :
    readOrAbort n pol s = .ok bs (State.exchanged pol true (.read n pol (some bs)) rest s) := by
  simp [readOrAbort, xferRead_ok h hl]

theorem readOrAbort_fail {n : Nat} {pol : Policy} {s : State} {rest : List Answer} (h : s.env = .fail :: rest) :
    readOrAbort n pol s = .error (.abort .transport) (State.exchanged pol false (.read n pol none) rest s) := by
  simp [readOrAbort, xferRead_fail h]

theorem readByteOrAbort_ok {pol : Policy} {s : State} {b : Byte} {rest : List Answer} (h : s.env = .ok [b] :: rest) :
    readByteOrAbort pol s = .ok b (State.exchanged pol true (.read 1 pol (some [b])) rest s) :=
  op_bind_ok (readOrAbort_ok h rfl)

theorem readByteOrAbort_fail {pol : Policy} {s : State} {rest : List Answer} (h : s.env = .fail :: rest) :
    readByteOrAbort pol s = .error (.abort .transport) (State.exchanged pol false (.read 1 pol none) rest s) :=
  op_bind_error (readOrAbort_fail h)

theorem clockOrAbort_ok {rate : Rate} {s : State} {bs : List Byte} {rest : List Answer} (h : s.env = .ok bs :: rest) :
    clockOrAbort rate s = .ok () (State.clocked rate true rest s) := by
  simp [clockOrAbort, xferSetClock_ok h]

theorem clockOrAbort_fail {rate : Rate} {s : State} {rest : List Answer} (h : s.env = .fail :: rest) :
    clockOrAbort rate s = .error (.abort .clockRejected) (State.clocked rate false rest s) := by
  simp [clockOrAbort, xferSetClock_fail h]

theorem release_ok {s : State} {bs : List Byte} {rest : List Answer} (h : s.env = .ok bs :: rest) :
    release s = .ok () (State.exchanged .deassert true releaseEvent rest s) := writeOrAbort_ok h

/-- All that a write inside an operation can do. -/
theorem writeOrAbort_cases (bytes : List Byte) (pol : Policy) (s : State) :
    writeOrAbort bytes pol s = .ok () (State.exchanged pol true (.write bytes pol true) s.env.tail s) ∨
    writeOrAbort bytes pol s =
      .error (.abort .transport) (State.exchanged pol false (.write bytes pol false) s.env.tail s) := by
  obtain ⟨ok, h⟩ := xferWrite_cases bytes pol s
  cases ok
  · exact .inr (by simp [writeOrAbort, h])
  · exact .inl (by simp [writeOrAbort, h])

/-- All that a read inside an operation can do. -/
theorem readOrAbort_cases (n : Nat) (pol : Policy) (s : State) :
    (∃ bs, bs.length = n ∧
      readOrAbort n pol s = .ok bs (State.exchanged pol true (.read n pol (some bs)) s.env.tail s)) ∨
    readOrAbort n pol s = .error (.abort .transport) (State.exchanged pol false (.read n pol none) s.env.tail s) := by
  obtain ⟨a, h, hl⟩ := xferRead_cases n pol s
  cases a with
  | none => exact .inr (by simp [readOrAbort, h])
  | some bs => exact .inl ⟨bs, hl bs rfl, by simp [readOrAbort, h]⟩

/-- All that a one-byte read inside an operation can do. -/
theorem readByteOrAbort_cases (pol : Policy) (s : State) :
    (∃ b, readByteOrAbort pol s = .ok b (State.exchanged pol true (.read 1 pol (some [b])) s.env.tail s)) ∨
    readByteOrAbort pol s = .error (.abort .transport) (State.exchanged pol false (.read 1 pol none) s.env.tail s) := by
  rcases readOrAbort_cases 1 pol s with ⟨bs, hl, h⟩ | h
  · obtain ⟨b, rfl⟩ := List.length_eq_one_iff.mp hl
    exact .inl ⟨b, op_bind_ok h⟩
  · exact .inr (op_bind_error h)

/-- All that a clock selection inside an operation can do. -/
theorem clockOrAbort_cases (rate : Rate) (s : State) :
    clockOrAbort rate s = .ok () (State.clocked rate true s.env.tail s) ∨
    clockOrAbort rate s = .error (.abort .clockRejected) (State.clocked rate false s.env.tail s) := by
  obtain ⟨ok, h⟩ := xferSetClock_cases rate s
  cases ok
  · exact .inr (by simp [clockOrAbort, h])
  · exact .inl (by simp [clockOrAbort, h])

/-! ### The abort path -/

/-- All that the abort path can do (R236 to R239): one cleanup event, the counters and scratch at free values, the
cause recorded, the session by R238, `last_ok` false, idle; nothing else. -/
theorem abort_cases (c : AbortCause) (s : State) :
    ∃ ok, s.abort c =
      { (State.exchanged .deassert ok (.write [0xFF] .deassert ok) s.env.tail s).retireCounters with
        cause := some c, session := sessionAfterAbort c ok s.session, lastOk := false, seq := .idle } := by
  obtain ⟨ok, h⟩ := xferWrite_cases [0xFF] .deassert ({ s with cause := some c } : State)
  exact ⟨ok, by rw [State.abort, State.abortTail, h]; rfl⟩

theorem abort_ok {c : AbortCause} {s : State} {bs : List Byte} {rest : List Answer} (h : s.env = .ok bs :: rest) :
    s.abort c =
      { (State.exchanged .deassert true releaseEvent rest s).retireCounters with
        cause := some c, session := sessionAfterAbort c true s.session, lastOk := false, seq := .idle } := by
  have h' : ({ s with cause := some c } : State).env = .ok bs :: rest := h
  rw [State.abort, State.abortTail, xferWrite_ok h']; rfl

theorem abort_fail {c : AbortCause} {s : State} {rest : List Answer} (h : s.env = .fail :: rest) :
    s.abort c =
      { (State.exchanged .deassert false (.write [0xFF] .deassert false) rest s).retireCounters with
        cause := some c, session := .notInitialized, lastOk := false, seq := .idle } := by
  have h' : ({ s with cause := some c } : State).env = .fail :: rest := h
  rw [State.abort, State.abortTail, xferWrite_fail h']; simp [sessionAfterAbort, State.exchanged, State.retireCounters]

/-! ### An operation run alone -/

theorem runAlone_ok {α : Type} {op : Op α} {ret : α → Result} {s t : State} {a : α} (h : op s = .ok a t) :
    runAlone op ret s = .next (t.returning (ret a)) := by simp [runAlone, h]

theorem runAlone_abort {α : Type} {op : Op α} {ret : α → Result} {s t : State} {c : AbortCause}
    (h : op s = .error (.abort c) t) : runAlone op ret s = .next ((t.abort c).returning .failed) := by
  simp [runAlone, h]

theorem settled_ok {body : Op Unit} {s t : State} (h : body s = .ok () t) : settled body s = .ok true t.settleOk := by
  simp [settled, h]

theorem settled_abort {body : Op Unit} {s t : State} {c : AbortCause} (h : body s = .error (.abort c) t) :
    settled body s = .ok false (t.abort c) := by simp [settled, h]

end Sys2Proof.Laws
end

