-- ==== Sys2Proof/Laws/Frames.lean ====
section
/-! SUPPORT. What the operations leave unchanged, proved once for any relation between the state before and the state
after: a relation that tolerates what the parts of an operation do holds across the whole operation, however it ends. -/

namespace Sys2Proof.Laws

open Sys2Proof.Machine

/-- The relation holds between the state an operation starts from and the one it ends or stops in. -/
def Keeps {α : Type} (R : State → State → Prop) (op : Op α) : Prop :=
  ∀ s, match op s with
    | .ok _ t => R s t
    | .error _ t => R s t

/-- A reflexive and transitive relation that tolerates one transport transfer and the poll counter. -/
structure Tolerant (R : State → State → Prop) : Prop where
  refl      : ∀ s, R s s
  trans     : ∀ {s t u}, R s t → R t u → R s u
  exchanged : ∀ pol ok e s, R s (State.exchanged pol ok e s.env.tail s)
  polls     : ∀ n s, R s { s with polls := n }
  retired   : ∀ s, R s s.retirePolls

namespace Tolerant

variable {R : State → State → Prop} (hR : Tolerant R)
include hR

theorem keeps_pure {α : Type} (a : α) : Keeps R (pure a : Op α) := fun s => hR.refl s

theorem keeps_get : Keeps R (get : Op State) := fun s => hR.refl s

theorem keeps_bind {α β : Type} {x : Op α} {f : α → Op β} (hx : Keeps R x) (hf : ∀ a, Keeps R (f a)) :
    Keeps R (x >>= f) := by
  intro s
  have h1 := hx s
  cases h : x s with
  | ok a t =>
    rw [h] at h1
    rw [op_bind_ok h]
    have h2 := hf a t
    cases h' : f a t <;> rw [h'] at h2 <;> exact hR.trans h1 h2
  | error e t => rw [h] at h1; rw [op_bind_error h]; exact h1

theorem keeps_raise {α : Type} (c : AbortCause) : Keeps R (raise c : Op α) := fun s => hR.refl s

theorem keeps_abortOn (c : Option AbortCause) : Keeps R (abortOn c) := by
  cases c
  · exact hR.keeps_pure ()
  · exact hR.keeps_raise _

theorem keeps_require (ok : Bool) (c : AbortCause) : Keeps R (require ok c) := by
  intro s; cases ok <;> exact hR.refl s

theorem keeps_write (bytes : List Byte) (pol : Policy) : Keeps R (writeOrAbort bytes pol) := by
  intro s
  rcases writeOrAbort_cases bytes pol s with h | h <;> rw [h] <;> exact hR.exchanged ..

theorem keeps_read (n : Nat) (pol : Policy) : Keeps R (readOrAbort n pol) := by
  intro s
  rcases readOrAbort_cases n pol s with ⟨bs, -, h⟩ | h <;> rw [h] <;> exact hR.exchanged ..

theorem keeps_readByte (pol : Policy) : Keeps R (readByteOrAbort pol) :=
  hR.keeps_bind (hR.keeps_read 1 pol) fun _ => hR.keeps_pure _

theorem keeps_release : Keeps R release := hR.keeps_write _ _

theorem keeps_fold (crc byte : Byte) : Keeps R (fold crc byte) := by
  intro s; unfold fold; cases s.tableBuilt <;> exact hR.refl s

theorem keeps_compute (bytes : List Byte) : Keeps R (compute bytes) := by
  unfold compute
  generalize (0 : Byte) = c
  induction bytes generalizing c with
  | nil => exact hR.keeps_pure c
  | cons b bs ih => rw [List.foldlM_cons]; exact hR.keeps_bind (hR.keeps_fold c b) ih

theorem keeps_assemble (index : Nat) (arg : Word) : Keeps R (assemble index arg) := by
  unfold assemble
  split
  · exact fun s => hR.refl s
  · exact hR.keeps_bind (hR.keeps_compute _) fun _ => hR.keeps_pure _

theorem keeps_pollResponse : Keeps R pollResponse := by
  have loop : ∀ n, Keeps R (pollResponseLoop n) := by
    intro n
    induction n with
    | zero => exact hR.keeps_pure _
    | succ n ih =>
      refine hR.keeps_bind (hR.keeps_readByte _) fun b => hR.keeps_bind (fun s => hR.polls _ s) fun _ => ?_
      split
      · exact ih
      · exact hR.keeps_pure _
  exact hR.keeps_bind (fun s => hR.polls _ s) fun _ => hR.keeps_bind hR.keeps_get fun _ =>
    hR.keeps_bind (loop _) fun _ => hR.keeps_bind (fun s => hR.retired s) fun _ => hR.keeps_pure _

theorem keeps_pollToken : Keeps R pollToken := by
  have loop : ∀ n, Keeps R (pollTokenLoop n) := by
    intro n
    induction n with
    | zero => exact hR.keeps_raise _
    | succ n ih =>
      refine hR.keeps_bind (hR.keeps_readByte _) fun b => hR.keeps_bind (fun s => hR.polls _ s) fun _ => ?_
      split
      · exact hR.keeps_pure _
      · split
        · exact ih
        · exact hR.keeps_raise _
  exact hR.keeps_bind (fun s => hR.polls _ s) fun _ => hR.keeps_bind hR.keeps_get fun _ =>
    hR.keeps_bind (loop _) fun _ s => hR.retired s

theorem keeps_busyWait : Keeps R busyWait := by
  have loop : ∀ n, Keeps R (busyWaitLoop n) := by
    intro n
    induction n with
    | zero => exact hR.keeps_raise _
    | succ n ih =>
      refine hR.keeps_bind (hR.keeps_readByte _) fun b => hR.keeps_bind (fun s => hR.polls _ s) fun _ => ?_
      split
      · exact hR.keeps_pure _
      · exact ih
  exact hR.keeps_bind (fun s => hR.polls _ s) fun _ => hR.keeps_bind hR.keeps_get fun _ =>
    hR.keeps_bind (loop _) fun _ s => hR.retired s

theorem keeps_receiveReply (shape : Shape) : Keeps R (receiveReply shape) := by
  refine hR.keeps_bind hR.keeps_pollResponse fun resp => ?_
  cases shape <;> cases resp
  · exact hR.keeps_pure _
  · exact hR.keeps_pure _
  · exact hR.keeps_bind (hR.keeps_read _ _) fun _ => hR.keeps_pure _
  · exact hR.keeps_pure _

theorem keeps_sendCmd (index : Nat) (arg : Word) (shape : Shape) : Keeps R (sendCmd index arg shape) :=
  hR.keeps_bind (hR.keeps_assemble _ _) fun _ => hR.keeps_bind (hR.keeps_write _ _) fun _ => hR.keeps_receiveReply _

theorem keeps_receiveChecked (tx : Tx) : Keeps R (receiveChecked tx) :=
  hR.keeps_bind (hR.keeps_receiveReply _) fun _ => hR.keeps_bind (hR.keeps_abortOn _) fun _ => hR.keeps_pure _

theorem keeps_transact (tx : Tx) (arg : Word) : Keeps R (transact tx arg) :=
  hR.keeps_bind (hR.keeps_sendCmd _ _ _) fun _ => hR.keeps_bind (hR.keeps_abortOn _) fun _ => hR.keeps_pure _

theorem keeps_initStep2 : Keeps R initStep2 := hR.keeps_bind (hR.keeps_transact _ _) fun _ => hR.keeps_release

theorem keeps_initStep3 : Keeps R initStep3 := hR.keeps_bind (hR.keeps_transact _ _) fun _ => hR.keeps_release

theorem keeps_initStep4 : Keeps R initStep4 := hR.keeps_bind (hR.keeps_transact _ _) fun _ => hR.keeps_release

theorem keeps_appOpCond : Keeps R appOpCond :=
  hR.keeps_bind (hR.keeps_transact _ _) fun _ => hR.keeps_bind hR.keeps_release fun _ => hR.keeps_pure _

theorem keeps_opCond : Keeps R opCond :=
  hR.keeps_bind (hR.keeps_transact _ _) fun _ => hR.keeps_bind hR.keeps_release fun _ => hR.keeps_pure _

theorem keeps_initStep5 (iter : ∀ n s, R s { s with iter := n }) : Keeps R initStep5 := by
  have loop : ∀ n, Keeps R (opCondLoop n) := by
    intro n
    induction n with
    | zero => exact hR.keeps_raise _
    | succ n ih =>
      refine hR.keeps_bind (fun s => iter _ s) fun _ => hR.keeps_bind hR.keeps_appOpCond fun _ =>
        hR.keeps_bind hR.keeps_opCond fun _ => ?_
      split
      · exact hR.keeps_pure _
      · exact ih
  exact hR.keeps_bind (fun s => iter _ s) fun _ => loop _

theorem keeps_initStep6 (isHc : ∀ v s, R s { s with isHc := some v }) : Keeps R initStep6 :=
  hR.keeps_bind (hR.keeps_transact _ _) fun _ => hR.keeps_bind (fun s => isHc _ s) fun _ => hR.keeps_release

omit hR in
theorem keeps_clock (clocked : ∀ rate ok s, R s (State.clocked rate ok s.env.tail s)) (rate : Rate) :
    Keeps R (clockOrAbort rate) := by
  intro s
  rcases clockOrAbort_cases rate s with h | h <;> rw [h] <;> exact clocked ..

/-- Initialization, whatever it meets. -/
theorem keeps_initBody (clocked : ∀ rate ok s, R s (State.clocked rate ok s.env.tail s))
    (iter : ∀ n s, R s { s with iter := n }) (isHc : ∀ v s, R s { s with isHc := some v })
    (session : ∀ x s, R s { s with session := x }) : Keeps R initBody :=
  hR.keeps_bind (fun s => session _ s) fun _ =>
    hR.keeps_bind (hR.keeps_bind (keeps_clock clocked _) fun _ => hR.keeps_bind hR.keeps_get fun _ => hR.keeps_write _ _)
      fun _ => hR.keeps_bind hR.keeps_initStep2 fun _ => hR.keeps_bind hR.keeps_initStep3 fun _ =>
    hR.keeps_bind hR.keeps_initStep4 fun _ => hR.keeps_bind (hR.keeps_initStep5 iter) fun _ =>
    hR.keeps_bind (hR.keeps_initStep6 isHc) fun _ => hR.keeps_bind (keeps_clock clocked _) fun _ s => session _ s

theorem keeps_addressFor (sector : Word) : Keeps R (addressFor sector) := by
  exact hR.keeps_bind (fun s => hR.refl s) fun _ => hR.keeps_pure _

theorem keeps_receiveBlock (buf : Buffer) (off : Nat)
    (stored : ∀ d s, d.length = Config.sectorSize → R s (s.memWrite buf off d)) : Keeps R (receiveBlock buf off) := by
  refine hR.keeps_bind hR.keeps_pollToken fun _ s => ?_
  rcases readOrAbort_cases Config.sectorSize .none s with ⟨d, hd, h⟩ | h
  · rw [op_bind_ok h]
    have hx := hR.exchanged .none true (.read Config.sectorSize .none (some d)) s
    have hw : Keeps R (update (State.memWrite buf off d)) := fun s => stored d s hd
    have hrest := hR.keeps_bind hw (fun _ => hR.keeps_bind (hR.keeps_read 2 .none) fun _ => hR.keeps_pure ())
      (State.exchanged .none true (.read Config.sectorSize .none (some d)) s.env.tail s)
    revert hrest
    generalize (update (State.memWrite buf off d) >>= fun _ => readOrAbort 2 .none >>= fun _ => pure () : Op Unit)
      (State.exchanged .none true (.read Config.sectorSize .none (some d)) s.env.tail s) = r
    cases r <;> exact fun h => hR.trans hx h
  · rw [op_bind_error h]; exact hR.exchanged ..

theorem keeps_sendBlock (token : BlockToken) (buf : Buffer) (off : Nat) : Keeps R (sendBlock token buf off) :=
  hR.keeps_bind (hR.keeps_write _ _) fun _ => hR.keeps_bind hR.keeps_get fun _ =>
    hR.keeps_bind (hR.keeps_write _ _) fun _ => hR.keeps_write _ _

theorem keeps_checkDataResponse : Keeps R checkDataResponse :=
  hR.keeps_bind (hR.keeps_readByte _) fun _ => hR.keeps_require _ _

theorem keeps_stopRead : Keeps R stopRead :=
  hR.keeps_bind (hR.keeps_transact _ _) fun _ => hR.keeps_bind hR.keeps_busyWait fun _ => hR.keeps_release

theorem keeps_stopWrite : Keeps R stopWrite :=
  hR.keeps_bind (hR.keeps_write _ _) fun _ => hR.keeps_bind hR.keeps_busyWait fun _ => hR.keeps_release

theorem keeps_appErase : Keeps R appErase :=
  hR.keeps_bind (hR.keeps_transact _ _) fun _ => hR.keeps_bind hR.keeps_release fun _ => hR.keeps_pure _

theorem keeps_eraseCount (count : Word) : Keeps R (eraseCount count) :=
  hR.keeps_bind (hR.keeps_transact _ _) fun _ => hR.keeps_bind hR.keeps_release fun _ => hR.keeps_pure _

theorem keeps_readSingleBody (buf : Buffer) (sector : Word)
    (stored : ∀ d s, d.length = Config.sectorSize → R s (s.memWrite buf 0 d)) : Keeps R (readSingleBody buf sector) :=
  hR.keeps_bind (hR.keeps_addressFor _) fun _ => hR.keeps_bind (hR.keeps_transact _ _) fun _ =>
    hR.keeps_bind (hR.keeps_receiveBlock _ _ stored) fun _ => hR.keeps_release

theorem keeps_receiveBlocks (buf : Buffer) (k left : Nat) (index : ∀ n s, R s { s with k := n })
    (stored : ∀ j d s, j < k + left → d.length = Config.sectorSize → R s (s.memWrite buf (Config.sectorSize * j) d)) :
    Keeps R (receiveBlocks buf k left) := by
  induction left generalizing k with
  | zero => exact hR.keeps_pure _
  | succ left ih =>
    exact hR.keeps_bind (fun s => index _ s) fun _ =>
      hR.keeps_bind (hR.keeps_receiveBlock _ _ fun d s => stored k d s (by omega)) fun _ =>
      ih (k + 1) fun j d s hj => stored j d s (by omega)

theorem keeps_readMultiBody (buf : Buffer) (sector count : Word) (index : ∀ n s, R s { s with k := n })
    (stored : ∀ j d s, j < count.toNat → d.length = Config.sectorSize →
      R s (s.memWrite buf (Config.sectorSize * j) d)) : Keeps R (readMultiBody buf sector count) :=
  hR.keeps_bind (hR.keeps_addressFor _) fun _ => hR.keeps_bind (hR.keeps_transact _ _) fun _ =>
    hR.keeps_bind (hR.keeps_receiveBlocks _ _ _ index fun j d s hj => stored j d s (by omega)) fun _ => hR.keeps_stopRead

theorem keeps_writeSingleBody (buf : Buffer) (sector : Word) : Keeps R (writeSingleBody buf sector) :=
  hR.keeps_bind (hR.keeps_addressFor _) fun _ => hR.keeps_bind (hR.keeps_transact _ _) fun _ =>
    hR.keeps_bind (hR.keeps_sendBlock _ _ _) fun _ => hR.keeps_bind hR.keeps_checkDataResponse fun _ =>
    hR.keeps_bind hR.keeps_busyWait fun _ => hR.keeps_release

theorem keeps_writeBlocks (buf : Buffer) (k left : Nat) (index : ∀ n s, R s { s with k := n }) :
    Keeps R (writeBlocks buf k left) := by
  induction left generalizing k with
  | zero => exact hR.keeps_pure _
  | succ left ih =>
    exact hR.keeps_bind (fun s => index _ s) fun _ =>
      hR.keeps_bind (hR.keeps_bind (hR.keeps_sendBlock _ _ _) fun _ => hR.keeps_bind hR.keeps_checkDataResponse fun _ =>
        hR.keeps_busyWait) fun _ => ih (k + 1)

theorem keeps_writeMultiBody (buf : Buffer) (sector count : Word) (index : ∀ n s, R s { s with k := n }) :
    Keeps R (writeMultiBody buf sector count) :=
  hR.keeps_bind hR.keeps_appErase fun _ => hR.keeps_bind (hR.keeps_eraseCount _) fun _ =>
    hR.keeps_bind (hR.keeps_addressFor _) fun _ => hR.keeps_bind (hR.keeps_transact _ _) fun _ =>
    hR.keeps_bind (hR.keeps_writeBlocks _ _ _ index) fun _ => hR.keeps_stopWrite

/-- An operation run to its end: the ending and the abort path tolerated, the relation holds across it. -/
theorem keeps_settled {body : Op Unit} (hb : Keeps R body) (ended : ∀ s, R s s.settleOk)
    (aborted : ∀ c s, R s (s.abort c)) : Keeps R (settled body) := by
  intro s
  have h := hb s
  unfold settled
  cases hs : body s with
  | ok a t => rw [hs] at h; exact hR.trans h (ended t)
  | error e t =>
    rw [hs] at h
    cases e with
    | abort c => exact hR.trans h (aborted c t)
    | fault f => exact h
    | refuse r => exact h

/-- An operation run alone that answers a next state. -/
theorem runAlone_next {α : Type} {op : Op α} {ret : α → Result} {s t : State} (hop : Keeps R op)
    (aborted : ∀ c s, R s (s.abort c)) (returned : ∀ r s, R s (s.returning r)) (h : runAlone op ret s = .next t) :
    R s t := by
  have h1 := hop s
  unfold runAlone at h
  cases hs : op s with
  | ok a u => rw [hs] at h h1; cases h; exact hR.trans h1 (returned _ _)
  | error e u =>
    rw [hs] at h h1
    cases e with
    | abort c => cases h; exact hR.trans h1 (hR.trans (aborted _ _) (returned _ _))
    | fault f => cases h
    | refuse r => cases h

end Tolerant

end Sys2Proof.Laws
end

