-- ==== Sys2Proof/Laws/Memory.lean ====
section
/-! SUPPORT. The callers' memory: reading after writing, and that every operation keeps the canonical form. -/

namespace Sys2Proof.Laws

open Sys2Proof.Machine

/-- Every address of the memory lies above `a`. -/
def Above (a : Nat) (m : Memory) : Prop := ∀ p ∈ m, a < p.1

theorem wf_cons_iff (a : Nat) (v : Byte) (m : Memory) :
    Memory.wf ((a, v) :: m) = true ↔ v ≠ Memory.unlisted ∧ Above a m ∧ Memory.wf m = true := by
  induction m generalizing a v with
  | nil => simp [Memory.wf, Above]
  | cons p m ih =>
    obtain ⟨b, w⟩ := p
    rw [Memory.wf]
    simp only [Bool.and_eq_true, bne_iff_ne, decide_eq_true_eq]
    constructor
    · rintro ⟨⟨hv, hab⟩, hw⟩
      refine ⟨hv, ?_, hw⟩
      have hb := ((ih b w).1 hw).2.1
      intro p hp
      rcases List.mem_cons.1 hp with rfl | hp
      · exact hab
      · exact Nat.lt_trans hab (hb p hp)
    · rintro ⟨hv, habove, hw⟩
      exact ⟨⟨hv, habove (b, w) (List.mem_cons_self ..)⟩, hw⟩

theorem read_above {a : Nat} {m : Memory} (h : Above a m) : Memory.read m a = Memory.unlisted := by
  induction m with
  | nil => rfl
  | cons p m ih =>
    obtain ⟨b, w⟩ := p
    have hb : a < b := h (b, w) (List.mem_cons_self ..)
    rw [Memory.read, if_neg (by omega)]
    exact ih fun q hq => h q (List.mem_cons_of_mem _ hq)

theorem read_enter_same {a : Nat} {b : Byte} {m : Memory} (h : Above a m) : Memory.read (Memory.enter a b m) a = b := by
  unfold Memory.enter
  split
  · rename_i hb; rw [read_above h, hb]
  · simp [Memory.read]

theorem read_enter_other {a x : Nat} {b : Byte} {m : Memory} (h : x ≠ a) :
    Memory.read (Memory.enter a b m) x = Memory.read m x := by
  unfold Memory.enter
  split <;> simp [Memory.read, h]

/-- A read after a write to the same address gives the byte written. -/
theorem read_write_same {m : Memory} (hm : m.wf = true) (a : Nat) (b : Byte) : (m.write a b).read a = b := by
  induction m with
  | nil => exact read_enter_same (by simp [Above])
  | cons p m ih =>
    obtain ⟨k, v⟩ := p
    obtain ⟨hv, hk, hw⟩ := (wf_cons_iff k v m).1 hm
    rw [Memory.write]
    split
    · rename_i hak
      refine read_enter_same fun q hq => ?_
      rcases List.mem_cons.1 hq with rfl | hq
      · exact hak
      · exact Nat.lt_trans hak (hk q hq)
    · split
      · rename_i hak
        exact read_enter_same (hak ▸ hk)
      · rename_i hne; rw [Memory.read, if_neg hne, ih hw]

/-- A write leaves every other address alone. -/
theorem read_write_other (m : Memory) {a x : Nat} (b : Byte) (h : x ≠ a) : (m.write a b).read x = m.read x := by
  induction m with
  | nil => exact read_enter_other h
  | cons p m ih =>
    obtain ⟨k, v⟩ := p
    rw [Memory.write]
    split
    · exact read_enter_other h
    · split
      · rename_i hak; rw [read_enter_other h]; simp [Memory.read, ← hak, h]
      · simp only [Memory.read, ih]

theorem above_enter {k a : Nat} {b : Byte} {m : Memory} (hm : Above k m) (ha : k < a) : Above k (Memory.enter a b m) := by
  unfold Memory.enter
  split
  · exact hm
  · intro q hq
    rcases List.mem_cons.1 hq with rfl | hq
    · exact ha
    · exact hm q hq

theorem above_write {k a : Nat} {b : Byte} {m : Memory} (hm : Above k m) (ha : k < a) : Above k (m.write a b) := by
  induction m with
  | nil => exact above_enter hm ha
  | cons p m ih =>
    obtain ⟨c, v⟩ := p
    have hc : k < c := hm (c, v) (List.mem_cons_self ..)
    have hm' : Above k m := fun q hq => hm q (List.mem_cons_of_mem _ hq)
    rw [Memory.write]
    split
    · exact above_enter hm ha
    · split
      · exact above_enter hm' ha
      · intro q hq
        rcases List.mem_cons.1 hq with rfl | hq
        · exact hc
        · exact ih hm' q hq

theorem wf_enter {a : Nat} {b : Byte} {m : Memory} (hm : m.wf = true) (ha : Above a m) :
    (Memory.enter a b m).wf = true := by
  unfold Memory.enter
  split
  · exact hm
  · rename_i hb; exact (wf_cons_iff a b m).2 ⟨hb, ha, hm⟩

/-- A write of one byte keeps the canonical form. -/
theorem wf_write {m : Memory} (hm : m.wf = true) (a : Nat) (b : Byte) : (m.write a b).wf = true := by
  induction m with
  | nil => exact wf_enter rfl (by simp [Above])
  | cons p m ih =>
    obtain ⟨k, v⟩ := p
    obtain ⟨hv, hk, hw⟩ := (wf_cons_iff k v m).1 hm
    rw [Memory.write]
    split
    · rename_i hak
      refine wf_enter hm fun q hq => ?_
      rcases List.mem_cons.1 hq with rfl | hq
      · exact hak
      · exact Nat.lt_trans hak (hk q hq)
    · split
      · rename_i hak; exact wf_enter hw (hak ▸ hk)
      · rename_i h1 h2
        exact (wf_cons_iff k v _).2 ⟨hv, above_write hk (by omega), ih hw⟩

/-- A write of a byte sequence keeps the canonical form. -/
theorem wf_writeBytes {m : Memory} (hm : m.wf = true) (a : Nat) (bs : List Byte) : (m.writeBytes a bs).wf = true := by
  induction bs generalizing m a with
  | nil => exact hm
  | cons b bs ih => exact ih (wf_write hm a b) (a + 1)

/-- A write of a byte sequence leaves every address outside it alone. -/
theorem read_writeBytes_other (m : Memory) {a x : Nat} (bs : List Byte) (h : x < a ∨ a + bs.length ≤ x) :
    (m.writeBytes a bs).read x = m.read x := by
  induction bs generalizing m a with
  | nil => rfl
  | cons b bs ih =>
    simp only [List.length_cons] at h
    rw [Memory.writeBytes, ih _ (by omega), read_write_other m b (by omega)]

/-- The `i`-th address of a written byte sequence reads as its `i`-th byte. -/
theorem read_writeBytes_same {m : Memory} (hm : m.wf = true) (a : Nat) (bs : List Byte) (i : Nat) (hi : i < bs.length) :
    (m.writeBytes a bs).read (a + i) = bs[i] := by
  induction bs generalizing m a i with
  | nil => simp at hi
  | cons b bs ih =>
    rw [Memory.writeBytes]
    cases i with
    | zero => exact (read_writeBytes_other _ bs (by omega)).trans (read_write_same hm a b)
    | succ i =>
      have := ih (wf_write hm a b) (a + 1) i (by simpa using hi)
      rw [show a + (i + 1) = a + 1 + i by omega, this]; rfl

@[simp] theorem readBytes_length (m : Memory) (a n : Nat) : (m.readBytes a n).length = n := by simp [Memory.readBytes]

/-- Reading back a byte sequence where it was written gives it. -/
theorem readBytes_writeBytes {m : Memory} (hm : m.wf = true) (a : Nat) (bs : List Byte) :
    (m.writeBytes a bs).readBytes a bs.length = bs := by
  apply List.ext_getElem (by simp)
  intro i h1 h2
  simp [Memory.readBytes, read_writeBytes_same hm a bs i h2]

/-- Two canonical memories that read alike everywhere are the same list. -/
theorem memory_ext {m m' : Memory} (hm : m.wf = true) (hm' : m'.wf = true) (h : ∀ a, m.read a = m'.read a) : m = m' := by
  induction m generalizing m' with
  | nil =>
    cases m' with
    | nil => rfl
    | cons p m' =>
      obtain ⟨a, v⟩ := p
      have := h a
      simp [Memory.read] at this
      exact absurd this.symm ((wf_cons_iff a v m').1 hm').1
  | cons p m ih =>
    obtain ⟨a, v⟩ := p
    obtain ⟨hv, ha, hw⟩ := (wf_cons_iff a v m).1 hm
    cases m' with
    | nil =>
      have := h a
      simp [Memory.read] at this
      exact absurd this hv
    | cons q m' =>
      obtain ⟨b, w⟩ := q
      obtain ⟨hv', hb, hw'⟩ := (wf_cons_iff b w m').1 hm'
      have hab : a = b := by
        rcases Nat.lt_trichotomy a b with hlt | heq | hgt
        · have := h a
          rw [Memory.read, if_pos rfl, Memory.read, if_neg (by omega),
            read_above fun q hq => Nat.lt_trans hlt (hb q hq)] at this
          exact absurd this hv
        · exact heq
        · have := h b
          rw [Memory.read, if_neg (by omega), read_above fun q hq => Nat.lt_trans hgt (ha q hq), Memory.read,
            if_pos rfl] at this
          exact absurd this.symm hv'
      subst hab
      have hvw : v = w := by simpa [Memory.read] using h a
      subst hvw
      have : m = m' := by
        refine ih hw hw' fun x => ?_
        by_cases hx : x = a
        · subst hx; rw [read_above ha, read_above hb]
        · simpa [Memory.read, hx] using h x
      rw [this]

/-! ### The operations over buffers -/

theorem wf_memWrite {s : State} (h : s.mem.wf = true) (buf : Buffer) (off : Nat) (v : List Byte) :
    (s.memWrite buf off v).mem.wf = true := wf_writeBytes h _ _

theorem wf_scrub {s : State} (h : s.mem.wf = true) (buf : Buffer) (count : Word) : (s.scrub buf count).mem.wf = true :=
  wf_writeBytes h _ _

theorem reset_memory_wf : State.reset.mem.wf = true := rfl

end Sys2Proof.Laws
end

