-- ==== Sys2Proof/Laws/PerInstr.lean ====
section
/-! SUPPORT. A fact about every operation as syntax: how long its encoding is. -/

namespace Sys2Proof.Laws

/-- The number of bytes of a unit in a slot: 6 for a command frame (R70), 5 for an R3 or R7 (R76, R77), else 1. -/
def unitLength : Slot → Nat
  | .command => 6
  | .response3 | .response7 => 5
  | .token | .dataResponse | .response1 => 1
  | .unclassified => 0

/-- An operation's encoding, if it has one, is a unit of a slot, of that slot's length. -/
def EncodedLength.Statement (i : Instr) : Prop :=
  ∀ slot bytes, encode i = some (slot, bytes) → slot ≠ .unclassified ∧ bytes.length = unitLength slot

theorem EncodedLength.of_some {i : Instr} {slot : Slot} {bytes : List Byte} (h : encode i = some (slot, bytes))
    (hs : slot ≠ .unclassified) (hl : bytes.length = unitLength slot) : EncodedLength.Statement i := by
  intro slot' bytes' h'
  rw [h] at h'
  cases h'
  exact ⟨hs, hl⟩

theorem EncodedLength.of_none {i : Instr} (h : encode i = none) : EncodedLength.Statement i := by
  intro slot bytes h'
  rw [h] at h'
  cases h'

theorem EncodedLength.cmd0 : EncodedLength.Statement (.cmd0) := EncodedLength.of_some rfl (by decide) rfl
theorem EncodedLength.cmd8 : EncodedLength.Statement (.cmd8) := EncodedLength.of_some rfl (by decide) rfl
theorem EncodedLength.cmd12 : EncodedLength.Statement (.cmd12) := EncodedLength.of_some rfl (by decide) rfl
theorem EncodedLength.cmd17 (arg : Word) : EncodedLength.Statement (.cmd17 arg) :=
  EncodedLength.of_some rfl (by decide) rfl
theorem EncodedLength.cmd18 (arg : Word) : EncodedLength.Statement (.cmd18 arg) :=
  EncodedLength.of_some rfl (by decide) rfl
theorem EncodedLength.cmd24 (arg : Word) : EncodedLength.Statement (.cmd24 arg) :=
  EncodedLength.of_some rfl (by decide) rfl
theorem EncodedLength.cmd25 (arg : Word) : EncodedLength.Statement (.cmd25 arg) :=
  EncodedLength.of_some rfl (by decide) rfl
theorem EncodedLength.cmd55 : EncodedLength.Statement (.cmd55) := EncodedLength.of_some rfl (by decide) rfl
theorem EncodedLength.cmd58 : EncodedLength.Statement (.cmd58) := EncodedLength.of_some rfl (by decide) rfl
theorem EncodedLength.acmd23 (arg : Word) : EncodedLength.Statement (.acmd23 arg) :=
  EncodedLength.of_some rfl (by decide) rfl
theorem EncodedLength.acmd41 : EncodedLength.Statement (.acmd41) := EncodedLength.of_some rfl (by decide) rfl
theorem EncodedLength.tokenStartBlock : EncodedLength.Statement (.tokenStartBlock) :=
  EncodedLength.of_some rfl (by decide) rfl
theorem EncodedLength.tokenStartMultiWrite : EncodedLength.Statement (.tokenStartMultiWrite) :=
  EncodedLength.of_some rfl (by decide) rfl
theorem EncodedLength.tokenStopTran : EncodedLength.Statement (.tokenStopTran) :=
  EncodedLength.of_some rfl (by decide) rfl
theorem EncodedLength.dataResponseAccepted (upper : BitVec 4) :
    EncodedLength.Statement (.dataResponseAccepted upper) := EncodedLength.of_some rfl (by decide) rfl
theorem EncodedLength.r1 (b : Byte) : EncodedLength.Statement (.r1 b) := EncodedLength.of_some rfl (by decide) rfl
theorem EncodedLength.r3 (b : Byte) (ocr : Word) : EncodedLength.Statement (.r3 b ocr) :=
  EncodedLength.of_some rfl (by decide) rfl
theorem EncodedLength.r7 (b : Byte) (echo : Word) : EncodedLength.Statement (.r7 b echo) :=
  EncodedLength.of_some rfl (by decide) rfl
theorem EncodedLength.hostStatus (drive : Nat) : EncodedLength.Statement (.hostStatus drive) :=
  EncodedLength.of_none rfl
theorem EncodedLength.hostInitialize (drive : Nat) : EncodedLength.Statement (.hostInitialize drive) :=
  EncodedLength.of_none rfl
theorem EncodedLength.hostRead (drive : Nat) (buf : Buffer) (sector count : Word) :
    EncodedLength.Statement (.hostRead drive buf sector count) := EncodedLength.of_none rfl
theorem EncodedLength.hostWrite (drive : Nat) (buf : Buffer) (sector count : Word) :
    EncodedLength.Statement (.hostWrite drive buf sector count) := EncodedLength.of_none rfl
theorem EncodedLength.hostSync (drive : Nat) : EncodedLength.Statement (.hostSync drive) := EncodedLength.of_none rfl
theorem EncodedLength.hostTimestamp : EncodedLength.Statement (.hostTimestamp) := EncodedLength.of_none rfl
theorem EncodedLength.buildTable : EncodedLength.Statement (.buildTable) := EncodedLength.of_none rfl
theorem EncodedLength.fold (crc byte : Byte) : EncodedLength.Statement (.fold crc byte) := EncodedLength.of_none rfl
theorem EncodedLength.compute (bytes : List Byte) : EncodedLength.Statement (.compute bytes) :=
  EncodedLength.of_none rfl
theorem EncodedLength.assemble (index : Nat) (arg : Word) : EncodedLength.Statement (.assemble index arg) :=
  EncodedLength.of_none rfl
theorem EncodedLength.xferWrite (bytes : List Byte) (pol : Policy) : EncodedLength.Statement (.xferWrite bytes pol) :=
  EncodedLength.of_none rfl
theorem EncodedLength.xferRead (n : Nat) (pol : Policy) : EncodedLength.Statement (.xferRead n pol) :=
  EncodedLength.of_none rfl
theorem EncodedLength.xferReadWrite (out : List Byte) (pol : Policy) :
    EncodedLength.Statement (.xferReadWrite out pol) := EncodedLength.of_none rfl
theorem EncodedLength.xferSetClock (rate : Rate) : EncodedLength.Statement (.xferSetClock rate) :=
  EncodedLength.of_none rfl
theorem EncodedLength.sendCmd (index : Nat) (arg : Word) (shape : Shape) :
    EncodedLength.Statement (.sendCmd index arg shape) := EncodedLength.of_none rfl
theorem EncodedLength.pollResponse : EncodedLength.Statement (.pollResponse) := EncodedLength.of_none rfl
theorem EncodedLength.pollToken : EncodedLength.Statement (.pollToken) := EncodedLength.of_none rfl
theorem EncodedLength.busyWait : EncodedLength.Statement (.busyWait) := EncodedLength.of_none rfl
theorem EncodedLength.release : EncodedLength.Statement (.release) := EncodedLength.of_none rfl
theorem EncodedLength.cleanup : EncodedLength.Statement (.cleanup) := EncodedLength.of_none rfl
theorem EncodedLength.sessionInitialize : EncodedLength.Statement (.sessionInitialize) := EncodedLength.of_none rfl
theorem EncodedLength.addressFor (sector : Word) : EncodedLength.Statement (.addressFor sector) :=
  EncodedLength.of_none rfl
theorem EncodedLength.ensureReady : EncodedLength.Statement (.ensureReady) := EncodedLength.of_none rfl
theorem EncodedLength.receiveBlock (buf : Buffer) (off : Nat) : EncodedLength.Statement (.receiveBlock buf off) :=
  EncodedLength.of_none rfl
theorem EncodedLength.checkDataResponse : EncodedLength.Statement (.checkDataResponse) := EncodedLength.of_none rfl
theorem EncodedLength.sendBlock (token : BlockToken) (buf : Buffer) (off : Nat) :
    EncodedLength.Statement (.sendBlock token buf off) := EncodedLength.of_none rfl
theorem EncodedLength.readSingle (buf : Buffer) (sector : Word) : EncodedLength.Statement (.readSingle buf sector) :=
  EncodedLength.of_none rfl
theorem EncodedLength.readMulti (buf : Buffer) (sector count : Word) :
    EncodedLength.Statement (.readMulti buf sector count) := EncodedLength.of_none rfl
theorem EncodedLength.writeSingle (buf : Buffer) (sector : Word) : EncodedLength.Statement (.writeSingle buf sector) :=
  EncodedLength.of_none rfl
theorem EncodedLength.writeMulti (buf : Buffer) (sector count : Word) :
    EncodedLength.Statement (.writeMulti buf sector count) := EncodedLength.of_none rfl
theorem EncodedLength.abortPath (c : AbortCause) : EncodedLength.Statement (.abortPath c) := EncodedLength.of_none rfl
theorem EncodedLength.resetBlock : EncodedLength.Statement (.resetBlock) := EncodedLength.of_none rfl

end Sys2Proof.Laws
end

