-- ==== Sys2Proof/Laws/Sequencer.lean ====
section
/-! SUPPORT. What the sequencer's steps can do, said once: a transport call as a step, the beginning of an operation, and
how runs of steps are put together. -/

namespace Sys2Proof.Laws

open Sys2Proof.Machine

/-! ### A transport call as a step -/

section steps
variable {cleanup : AbortCause → Seq} {s : State}

/-- All that a write as a step can do: go on, or stand before the abort path with TRANSPORT. -/
theorem stepWrite_cases (bytes : List Byte) (pol : Policy) (k : State → State) :
    stepWrite cleanup bytes pol k s = k (State.exchanged pol true (.write bytes pol true) s.env.tail s) ∨
    stepWrite cleanup bytes pol k s =
      (State.exchanged pol false (.write bytes pol false) s.env.tail s).raised cleanup .transport := by
  obtain ⟨ok, h⟩ := xferWrite_cases bytes pol s
  unfold stepWrite
  rw [h]
  cases ok
  · exact .inr rfl
  · exact .inl rfl

/-- All that a read as a step can do. -/
theorem stepRead_cases (n : Nat) (pol : Policy) (k : List Byte → State → State) :
    (∃ bs : List Byte, bs.length = n ∧ stepRead cleanup n pol k s =
      k bs (State.exchanged pol true (.read n pol (some bs)) s.env.tail s)) ∨
    stepRead cleanup n pol k s =
      (State.exchanged pol false (.read n pol none) s.env.tail s).raised cleanup .transport := by
  obtain ⟨a, h, hl⟩ := xferRead_cases n pol s
  unfold stepRead
  rw [h]
  cases a with
  | none => exact .inr rfl
  | some bs => exact .inl ⟨bs, hl bs rfl, rfl⟩

/-- All that a clock selection as a step can do. -/
theorem stepClock_cases (rate : Rate) (k : State → State) :
    stepClock cleanup rate k s = k (State.clocked rate true s.env.tail s) ∨
    stepClock cleanup rate k s = (State.clocked rate false s.env.tail s).raised cleanup .clockRejected := by
  obtain ⟨ok, h⟩ := xferSetClock_cases rate s
  unfold stepClock
  rw [h]
  cases ok
  · exact .inr rfl
  · exact .inl rfl

/-- A transaction goes on, or aborts, unless it folds with no table. -/
theorem tickTx_next (x : Exchange) (here : TxStep → Seq) (after : Resp → Option Word → State → State) (p : TxStep)
    (h : s.tableBuilt = true) : ∃ t, tickTx x here cleanup after p s = .next t := by
  cases p <;> simp [tickTx, h]

end steps

/-! ### The beginning of an operation -/

@[simp] theorem enterInit_session (s : State) : s.enterInit.session = .initializing := rfl
@[simp] theorem enterInit_seq (s : State) : s.enterInit.seq = .bringUp none .slowClock := rfl
@[simp] theorem enterInit_trace (s : State) : s.enterInit.trace = s.trace := rfl
@[simp] theorem enterInit_env (s : State) : s.enterInit.env = s.env := rfl
@[simp] theorem enterPoll_seq (i : Instr) (p : AloneStep) (as : List Answer) (s : State) :
    (s.enterPoll i p as).seq = .alone i p := rfl
@[simp] theorem enterPoll_session (i : Instr) (p : AloneStep) (as : List Answer) (s : State) :
    (s.enterPoll i p as).session = s.session := rfl
@[simp] theorem enterPoll_polls (i : Instr) (p : AloneStep) (as : List Answer) (s : State) :
    (s.enterPoll i p as).polls = 0 := rfl
@[simp] theorem enterPoll_trace (i : Instr) (p : AloneStep) (as : List Answer) (s : State) :
    (s.enterPoll i p as).trace = s.trace := rfl
@[simp] theorem enterPoll_env (i : Instr) (p : AloneStep) (as : List Answer) (s : State) :
    (s.enterPoll i p as).env = as ++ s.env := rfl

/-- What runs in one step is its meaning when it is begun. -/
theorem start_of_runsInOneStep {i : Instr} (h : i.runsInOneStep = true) (s : State) : start i s = exec i s := by
  cases i <;> first | (exact absurd h Bool.false_ne_true) | simp only [start]

/-- Idle bytes reach a poll as idle answers. -/
theorem arriving_idle (m : Nat) : arriving (List.replicate m 0xFF) = idleAnswers m := by
  induction m with
  | zero => rfl
  | succ m ih => simp [arriving, List.replicate_succ, idleAnswers]

/-- Idle bytes reach a poll as idle answers, the byte after them as the last one. -/
theorem arriving_idle_then (m : Nat) {b : Byte} (more : List Byte) (h : b ≠ 0xFF) :
    arriving (List.replicate m 0xFF ++ b :: more) = idleAnswers m ++ [.ok [b]] := by
  have h' : (b == 0xFF) = false := by simpa using h
  induction m with
  | zero => simp only [arriving, List.replicate, List.nil_append, List.takeWhile_cons, List.dropWhile_cons, h']; rfl
  | succ m ih =>
    simp only [arriving, List.replicate_succ, List.cons_append, List.takeWhile_cons, List.dropWhile_cons, beq_self_eq_true,
      if_true, List.map_cons, idleAnswers] at ih ⊢
    rw [ih]

/-- A step of an idle block with a request takes it. -/
theorem step_request {s : State} {r : Request} {rest : List Request} (hs : s.seq = .idle) (hr : s.requests = r :: rest) :
    step s = serve r { s with requests := rest } := by simp [step, hs, serveNext, hr]

/-- A step of an operation in progress is its next action. -/
theorem step_tick {s : State} (hs : s.seq ≠ .idle) : step s = tick s := by simp [step, hs]

/-! ### Runs of steps -/

/-- One step, then the others. -/
theorem runSteps_succ (n : Nat) {s t : State} (h : step s = .next t) : runSteps (n + 1) s = runSteps n t := by
  have h' : Sys2Proof.core.step s = .next t := h
  simp only [runSteps, Host.Core.run, h']; rfl

/-- A fault ends a run. -/
theorem runSteps_fault (n : Nat) {s : State} {f : Fault} (h : step s = .fault f) : runSteps (n + 1) s = .fault f := by
  have h' : Sys2Proof.core.step s = .fault f := h
  simp only [runSteps, Host.Core.run, h']; rfl

/-- A refusal ends a run. -/
theorem runSteps_refused (n : Nat) {s : State} {r : Refusal} (h : step s = .refused r) :
    runSteps (n + 1) s = .refused r := by
  have h' : Sys2Proof.core.step s = .refused r := h
  simp only [runSteps, Host.Core.run, h']; rfl

/-- Runs of steps follow one another. -/
theorem runSteps_add {m n : Nat} {s t : State} (h : runSteps m s = .next t) : runSteps (m + n) s = runSteps n t := by
  induction m generalizing s with
  | zero => cases h; rw [Nat.zero_add]
  | succ m ih =>
    cases hs : step s with
    | next u => rw [runSteps_succ m hs] at h; rw [Nat.add_right_comm, runSteps_succ _ hs]; exact ih h
    | fault f => rw [runSteps_fault m hs] at h; cases h
    | refused r => rw [runSteps_refused m hs] at h; cases h

end Sys2Proof.Laws
end

