-- ==== Sys2Proof/Laws/Session.lean ====
section
/-! SUPPORT. What the polls, the command transactions and the data blocks do on the answers of a card that replies:
which calls they make, which answers they use, and that nothing else changes. -/

namespace Sys2Proof.Machine

theorem SameButTransfer.refl (s : State) : SameButTransfer s s := ⟨rfl, rfl, rfl, rfl, rfl, rfl, rfl, rfl, rfl, rfl, rfl, rfl, rfl, rfl⟩

theorem SameButTransfer.trans {s t u : State} (h : SameButTransfer s t) (k : SameButTransfer t u) : SameButTransfer s u :=
  ⟨k.session.trans h.session, k.isHc.trans h.isHc, k.lastOk.trans h.lastOk, k.table.trans h.table,
    k.tableBuilt.trans h.tableBuilt, k.clock.trans h.clock, k.iter.trans h.iter, k.k.trans h.k, k.cause.trans h.cause,
    k.seq.trans h.seq, k.mem.trans h.mem, k.params.trans h.params, k.clockAnswers.trans h.clockAnswers,
    k.requests.trans h.requests⟩

theorem Talked.nothing (s : State) : Talked s s [] s.env s.cs := ⟨(List.append_nil _).symm, rfl, rfl, SameButTransfer.refl s⟩

theorem Talked.trans {s t u : State} {es fs : List Event} {r q : List Answer} {c d : ChipSelect}
    (h : Talked s t es r c) (k : Talked t u fs q d) : Talked s u (es ++ fs) q d :=
  ⟨by rw [k.trace, h.trace, List.append_assoc], k.env, k.cs, h.same.trans k.same⟩

end Sys2Proof.Machine

namespace Sys2Proof.Laws

open Sys2Proof.Machine

/-- One answered transfer. -/
theorem talked_exchanged (pol : Policy) (ok : Bool) (e : Event) (rest : List Answer) (s : State) :
    Talked s (State.exchanged pol ok e rest s) [e] rest (csAfter pol ok (csBefore pol s.cs)) :=
  ⟨rfl, rfl, rfl, ⟨rfl, rfl, rfl, rfl, rfl, rfl, rfl, rfl, rfl, rfl, rfl, rfl, rfl, rfl⟩⟩

theorem talked_polls {s t : State} {es : List Event} {r : List Answer} {c : ChipSelect} (h : Talked s t es r c) (n : Nat) :
    Talked s { t with polls := n } es r c :=
  ⟨h.trace, h.env, h.cs, h.same.trans ⟨rfl, rfl, rfl, rfl, rfl, rfl, rfl, rfl, rfl, rfl, rfl, rfl, rfl, rfl⟩⟩

theorem talked_retired {s t : State} {es : List Event} {r : List Answer} {c : ChipSelect} (h : Talked s t es r c) :
    Talked s t.retirePolls es r c :=
  ⟨h.trace, h.env, h.cs, h.same.trans ⟨rfl, rfl, rfl, rfl, rfl, rfl, rfl, rfl, rfl, rfl, rfl, rfl, rfl, rfl⟩⟩

theorem idleAnswers_succ (m : Nat) : idleAnswers (m + 1) = .ok [0xFF] :: idleAnswers m := rfl

/-! ### The frame -/

theorem compute_eq {s : State} (h : s.framing) (bytes : List Byte) :
    compute bytes s = .ok (computeWith builtTable bytes) s := by
  unfold compute computeWith
  generalize (0 : Byte) = c
  induction bytes generalizing c with
  | nil => rfl
  | cons b bs ih =>
    have hf : fold c b s = .ok (foldWith builtTable c b) s := by simp [fold, h.1, h.2]
    rw [List.foldlM_cons, op_bind_ok hf, List.foldl_cons]
    exact ih _

/-- The frame, when the table is built (R105). -/
theorem assemble_eq {s : State} (h : s.framing) {index : Nat} (hi : index ≤ 63) (arg : Word) :
    assemble index arg s = .ok (frameWith builtTable index arg) s := by
  unfold assemble
  rw [if_neg (by omega), op_bind_ok (compute_eq h _)]; rfl

theorem framing_of_same {s t : State} (h : s.framing) (k : SameButTransfer s t) : t.framing :=
  ⟨k.tableBuilt.trans h.1, k.table.trans h.2⟩

/-! ### Polls -/

theorem pollResponseLoop_after {m n : Nat} {b : Byte} {s : State} {rest : List Answer}
    (he : s.env = idleAnswers m ++ .ok [b] :: rest) (hm : m < n) (hb : b ≠ 0xFF) :
    ∃ t, pollResponseLoop n s = .ok (.byte b) t ∧ Talked s t (idleReads m ++ [byteRead b]) rest s.cs := by
  induction m generalizing n s with
  | zero =>
    obtain ⟨n, rfl⟩ : ∃ k, n = k + 1 := ⟨n - 1, by omega⟩
    refine ⟨_, ?_, talked_polls (talked_exchanged .none true (byteRead b) rest s) (s.polls + 1)⟩
    rw [pollResponseLoop, op_bind_ok (readByteOrAbort_ok he), op_bind_ok (op_update _ _), if_neg hb]
    rfl
  | succ m ih =>
    obtain ⟨n, rfl⟩ : ∃ k, n = k + 1 := ⟨n - 1, by omega⟩
    rw [idleAnswers_succ, List.cons_append] at he
    have h1 := talked_polls (talked_exchanged .none true (byteRead 0xFF) (idleAnswers m ++ .ok [b] :: rest) s) (s.polls + 1)
    obtain ⟨t, ht, h2⟩ := ih (n := n) h1.env (by omega)
    refine ⟨t, ?_, ?_⟩
    · rw [pollResponseLoop, op_bind_ok (readByteOrAbort_ok he), op_bind_ok (op_update _ _), if_pos rfl]
      exact ht
    · simpa [idleReads, List.replicate_succ, byteRead] using h1.trans h2

theorem pollResponseLoop_silent {n : Nat} {s : State} {rest : List Answer} (he : s.env = idleAnswers n ++ rest) :
    ∃ t, pollResponseLoop n s = .ok .timeout t ∧ Talked s t (idleReads n) rest s.cs := by
  induction n generalizing s with
  | zero => exact ⟨s, rfl, by have := Talked.nothing s; rw [he] at this; exact this⟩
  | succ n ih =>
    rw [idleAnswers_succ, List.cons_append] at he
    have h1 := talked_polls (talked_exchanged .none true (byteRead 0xFF) (idleAnswers n ++ rest) s) (s.polls + 1)
    obtain ⟨t, ht, h2⟩ := ih h1.env
    refine ⟨t, ?_, ?_⟩
    · rw [pollResponseLoop, op_bind_ok (readByteOrAbort_ok he), op_bind_ok (op_update _ _), if_pos rfl]
      exact ht
    · simpa [idleReads, List.replicate_succ, byteRead] using h1.trans h2

/-- The response poll on a card's reply (R141). -/
theorem pollResponse_reply {r : CardReply} {s : State} {rest : List Answer}
    (he : s.env = r.answers s.params.nResp ++ rest) (hr : r.fits s.params.nResp = true) :
    ∃ t, pollResponse s = .ok r.resp t ∧ Talked s t (r.events s.params.nResp) rest s.cs := by
  have h0 := talked_polls (Talked.nothing s) 0
  have hk : ∀ {x : Resp} {u : State},
      pollResponseLoop s.params.nResp { s with polls := 0 } = .ok x u → pollResponse s = .ok x u.retirePolls := by
    intro x u hu
    unfold pollResponse
    rw [op_bind_ok (op_update _ _), op_bind_ok (op_get _), op_bind_ok hu, op_bind_ok (op_update _ _)]; rfl
  cases r with
  | after m b =>
    simp only [CardReply.fits, Bool.and_eq_true, decide_eq_true_eq, bne_iff_ne] at hr
    obtain ⟨t, ht, h⟩ := pollResponseLoop_after (s := { s with polls := 0 }) (b := b) (m := m) (rest := rest)
      (by simpa [CardReply.answers] using he) hr.1 hr.2
    exact ⟨_, hk ht, talked_retired (h0.trans h)⟩
  | silent =>
    obtain ⟨t, ht, h⟩ := pollResponseLoop_silent (s := { s with polls := 0 }) (n := s.params.nResp) (rest := rest)
      (by simpa [CardReply.answers] using he)
    exact ⟨_, hk ht, talked_retired (h0.trans h)⟩

/-- The token poll on a token within the budget (R143). -/
theorem pollToken_found {m : Nat} {s : State} {rest : List Answer} (he : s.env = idleAnswers m ++ .ok [0xFE] :: rest)
    (hm : m < s.params.nToken) :
    ∃ t, pollToken s = .ok () t ∧ Talked s t (idleReads m ++ [byteRead 0xFE]) rest s.cs := by
  have loop : ∀ (m n : Nat) (s : State), s.env = idleAnswers m ++ .ok [0xFE] :: rest → m < n →
      ∃ t, pollTokenLoop n s = .ok () t ∧ Talked s t (idleReads m ++ [byteRead 0xFE]) rest s.cs := by
    intro m
    induction m with
    | zero =>
      intro n s he hn
      obtain ⟨n, rfl⟩ : ∃ k, n = k + 1 := ⟨n - 1, by omega⟩
      refine ⟨_, ?_, talked_polls (talked_exchanged .none true (byteRead 0xFE) rest s) (s.polls + 1)⟩
      rw [pollTokenLoop, op_bind_ok (readByteOrAbort_ok he), op_bind_ok (op_update _ _), if_pos rfl]
      rfl
    | succ m ih =>
      intro n s he hn
      obtain ⟨n, rfl⟩ : ∃ k, n = k + 1 := ⟨n - 1, by omega⟩
      rw [idleAnswers_succ, List.cons_append] at he
      have h1 := talked_polls
        (talked_exchanged .none true (byteRead 0xFF) (idleAnswers m ++ .ok [0xFE] :: rest) s) (s.polls + 1)
      obtain ⟨t, ht, h2⟩ := ih n _ h1.env (by omega)
      refine ⟨t, ?_, ?_⟩
      · rw [pollTokenLoop, op_bind_ok (readByteOrAbort_ok he), op_bind_ok (op_update _ _), if_neg (by decide), if_pos rfl]
        exact ht
      · simpa [idleReads, List.replicate_succ, byteRead] using h1.trans h2
  obtain ⟨t, ht, h⟩ := loop m s.params.nToken { s with polls := 0 } he hm
  refine ⟨_, ?_, talked_retired ((talked_polls (Talked.nothing s) 0).trans h)⟩
  unfold pollToken
  rw [op_bind_ok (op_update _ _), op_bind_ok (op_get _), op_bind_ok ht]; rfl

/-- The busy wait on a card that ends its busy time within the budget (R144). -/
theorem busyWait_found {busy : List Byte} {s : State} {rest : List Answer} (he : s.env = busyAnswers busy ++ rest)
    (hb : busyFits s.params busy = true) :
    ∃ t, busyWait s = .ok () t ∧ Talked s t (busyEvents busy) rest s.cs := by
  have loop : ∀ (busy : List Byte) (n : Nat) (s : State), s.env = busyAnswers busy ++ rest → busy.length < n →
      (∀ b ∈ busy, b ≠ 0xFF) → ∃ t, busyWaitLoop n s = .ok () t ∧ Talked s t (busyEvents busy) rest s.cs := by
    intro busy
    induction busy with
    | nil =>
      intro n s he hn _
      obtain ⟨n, rfl⟩ : ∃ k, n = k + 1 := ⟨n - 1, by omega⟩
      refine ⟨_, ?_, talked_polls (talked_exchanged .none true (byteRead 0xFF) rest s) (s.polls + 1)⟩
      have he' : s.env = .ok [0xFF] :: rest := he
      rw [busyWaitLoop, op_bind_ok (readByteOrAbort_ok he'), op_bind_ok (op_update _ _), if_pos rfl]
      rfl
    | cons b bs ih =>
      intro n s he hn hne
      obtain ⟨n, rfl⟩ : ∃ k, n = k + 1 := ⟨n - 1, by omega⟩
      have he' : s.env = .ok [b] :: (busyAnswers bs ++ rest) := by simpa [busyAnswers] using he
      have h1 := talked_polls (talked_exchanged .none true (byteRead b) (busyAnswers bs ++ rest) s) (s.polls + 1)
      obtain ⟨t, ht, h2⟩ := ih n _ h1.env (by simpa using hn) fun c hc => hne c (List.mem_cons_of_mem _ hc)
      refine ⟨t, ?_, ?_⟩
      · rw [busyWaitLoop, op_bind_ok (readByteOrAbort_ok he'), op_bind_ok (op_update _ _),
          if_neg (hne b (List.mem_cons_self ..))]
        exact ht
      · simpa [busyEvents] using h1.trans h2
  simp only [busyFits, Bool.and_eq_true, decide_eq_true_eq, List.all_eq_true, bne_iff_ne] at hb
  obtain ⟨t, ht, h⟩ := loop busy s.params.nBusy { s with polls := 0 } he hb.1 hb.2
  refine ⟨_, ?_, talked_retired ((talked_polls (Talked.nothing s) 0).trans h)⟩
  unfold busyWait
  rw [op_bind_ok (op_update _ _), op_bind_ok (op_get _), op_bind_ok ht]; rfl

/-! ### Command transactions -/

/-- The response part of a transaction with a 1-byte response. -/
theorem receiveReply_r1 {r : CardReply} {s : State} {rest : List Answer} (he : s.env = r.answers s.params.nResp ++ rest)
    (hr : r.fits s.params.nResp = true) :
    ∃ t, receiveReply .r1 s = .ok ⟨r.resp, none⟩ t ∧ Talked s t (r.events s.params.nResp) rest s.cs := by
  obtain ⟨t, ht, h⟩ := pollResponse_reply he hr
  exact ⟨t, by unfold receiveReply; rw [op_bind_ok ht]; rfl, h⟩

/-- The response part of a transaction with a 5-byte response. -/
theorem receiveReply_r5 {m : Nat} {b : Byte} {w : Word} {s : State} {rest : List Answer}
    (he : s.env = idleAnswers m ++ .ok [b] :: wordAnswer w :: rest) (hm : m < s.params.nResp) (hb : b ≠ 0xFF) :
    ∃ t, receiveReply .r5 s = .ok ⟨.byte b, some w⟩ t ∧
      Talked s t (idleReads m ++ [byteRead b, wordRead w]) rest s.cs := by
  obtain ⟨t, ht, h⟩ := pollResponse_reply (r := .after m b) (s := s) (rest := wordAnswer w :: rest)
    (by simpa [CardReply.answers] using he) (by simpa [CardReply.fits, hm] using hb)
  refine ⟨State.exchanged .none true (wordRead w) rest t, ?_, ?_⟩
  · unfold receiveReply
    have hr : readOrAbort 4 .none t = .ok (wordBytes w) (State.exchanged .none true (wordRead w) rest t) :=
      readOrAbort_ok h.env rfl
    rw [op_bind_ok ht]
    refine (op_bind_ok hr).trans ?_
    rw [be32_wordBytes]
    rfl
  · have := h.trans (talked_exchanged .none true (wordRead w) rest t)
    simpa [CardReply.events, h.cs] using this

theorem receiveReply_r5_silent {s : State} {rest : List Answer}
    (he : s.env = idleAnswers s.params.nResp ++ rest) :
    ∃ t, receiveReply .r5 s = .ok ⟨.timeout, none⟩ t ∧ Talked s t (idleReads s.params.nResp) rest s.cs := by
  obtain ⟨t, ht, h⟩ := pollResponse_reply (r := .silent) (s := s) (rest := rest) he rfl
  exact ⟨t, by unfold receiveReply; rw [op_bind_ok ht]; rfl, h⟩

theorem writeFrame {index : Nat} {arg : Word} {s : State} {rest : List Answer} (he : s.env = okAnswer :: rest) :
    ∃ t, writeOrAbort (frameWith builtTable index arg) .assert s = .ok () t ∧
      Talked s t [frameEvent index arg] rest .asserted :=
  ⟨_, writeOrAbort_ok he, talked_exchanged .assert true (frameEvent index arg) rest s⟩

/-- A whole transaction with a 1-byte response (R140). -/
theorem sendCmd_r1 {index : Nat} {arg : Word} {r : CardReply} {s : State} {rest : List Answer} (hf : s.framing)
    (hi : index ≤ 63) (he : s.env = txAnswers s.params r ++ rest) (hr : r.fits s.params.nResp = true) :
    ∃ t, sendCmd index arg .r1 s = .ok ⟨r.resp, none⟩ t ∧
      Talked s t (txEvents s.params index arg r) rest .asserted := by
  obtain ⟨u, hu, h1⟩ := writeFrame (index := index) (arg := arg) (s := s) (rest := r.answers s.params.nResp ++ rest) he
  have hp : u.params = s.params := h1.same.params
  obtain ⟨t, ht, h2⟩ := receiveReply_r1 (r := r) (s := u) (rest := rest) (by rw [hp]; exact h1.env) (by rw [hp]; exact hr)
  refine ⟨t, ?_, ?_⟩
  · unfold sendCmd; rw [op_bind_ok (assemble_eq hf hi arg), op_bind_ok hu]; exact ht
  · have := h1.trans h2; rw [hp, h1.cs] at this; exact this

/-- A whole transaction with a 5-byte response (R140). -/
theorem sendCmd_r5 {index : Nat} {arg : Word} {m : Nat} {b : Byte} {w : Word} {s : State} {rest : List Answer}
    (hf : s.framing) (hi : index ≤ 63) (he : s.env = wideAnswers m b w ++ rest) (hm : m < s.params.nResp)
    (hb : b ≠ 0xFF) :
    ∃ t, sendCmd index arg .r5 s = .ok ⟨.byte b, some w⟩ t ∧
      Talked s t (wideEvents index arg m b w) rest .asserted := by
  obtain ⟨u, hu, h1⟩ := writeFrame (index := index) (arg := arg) (s := s)
    (rest := idleAnswers m ++ .ok [b] :: wordAnswer w :: rest) (by simpa [wideAnswers] using he)
  obtain ⟨t, ht, h2⟩ := receiveReply_r5 (s := u) h1.env (by rw [h1.same.params]; exact hm) hb
  refine ⟨t, ?_, ?_⟩
  · unfold sendCmd; rw [op_bind_ok (assemble_eq hf hi arg), op_bind_ok hu]; exact ht
  · have := h1.trans h2; rw [h1.cs] at this; exact this

/-- A transaction with a 5-byte response and no response. -/
theorem sendCmd_r5_silent {index : Nat} {arg : Word} {s : State} {rest : List Answer}
    (hf : s.framing) (hi : index ≤ 63) (he : s.env = txAnswers s.params .silent ++ rest) :
    ∃ t, sendCmd index arg .r5 s = .ok ⟨.timeout, none⟩ t ∧
      Talked s t (txEvents s.params index arg .silent) rest .asserted := by
  obtain ⟨u, hu, h1⟩ := writeFrame (index := index) (arg := arg) (s := s)
    (rest := idleAnswers s.params.nResp ++ rest) he
  have hp : u.params = s.params := h1.same.params
  obtain ⟨t, ht, h2⟩ := receiveReply_r5_silent (s := u) (rest := rest) (by rw [hp]; exact h1.env)
  refine ⟨t, ?_, ?_⟩
  · unfold sendCmd; rw [op_bind_ok (assemble_eq hf hi arg), op_bind_ok hu]; exact ht
  · have := h1.trans h2; rw [hp, h1.cs] at this; exact this

/-- A transaction whose check passes is the transaction. -/
theorem transact_pass {tx : Tx} {arg : Word} {s t : State} {r : Reply}
    (hs : sendCmd tx.index arg tx.shape s = .ok r t) (hc : tx.check r.resp r.value = none) :
    transact tx arg s = .ok r t := by
  unfold transact; rw [op_bind_ok hs, hc]; rfl

/-- A transaction whose check fails aborts with the check's cause. -/
theorem transact_fail {tx : Tx} {arg : Word} {s t : State} {r : Reply} {c : AbortCause}
    (hs : sendCmd tx.index arg tx.shape s = .ok r t) (hc : tx.check r.resp r.value = some c) :
    transact tx arg s = .error (.abort c) t := by
  unfold transact; rw [op_bind_ok hs, hc]; rfl

theorem release_talked {s : State} {rest : List Answer} (he : s.env = okAnswer :: rest) :
    ∃ t, release s = .ok () t ∧ Talked s t [releaseEvent] rest .deasserted :=
  ⟨_, release_ok he, talked_exchanged .deassert true releaseEvent rest s⟩

/-! ### Data blocks -/

/-- A received block (R179): the token, the payload, the CRC. -/
theorem receiveBlock_ok {c : CardBlock} {buf : Buffer} {off : Nat} {s : State} {rest : List Answer}
    (he : s.env = c.answers ++ rest) (hc : c.fits s.params = true) :
    ∃ t, receiveBlock buf off s = .ok () t ∧ t.mem = s.mem.writeBytes (buf.base + off) c.payload ∧
      Talked (s.memWrite buf off c.payload) t c.events rest s.cs := by
  simp only [CardBlock.fits, Bool.and_eq_true, decide_eq_true_eq, beq_iff_eq] at hc
  obtain ⟨⟨hw, hp⟩, hcrc⟩ := hc
  obtain ⟨u, hu, h1⟩ := pollToken_found (m := c.wait) (s := s) (rest := .ok c.payload :: .ok c.crc :: rest)
    (by simpa [CardBlock.answers] using he) hw
  have hr := readOrAbort_ok (n := Config.sectorSize) (pol := .none) h1.env hp
  refine ⟨State.exchanged .none true (.read 2 .none (some c.crc)) rest (State.memWrite buf off c.payload
    (State.exchanged .none true (.read Config.sectorSize .none (some c.payload)) (.ok c.crc :: rest) u)), ?_, ?_, ?_⟩
  · unfold receiveBlock
    rw [op_bind_ok hu, op_bind_ok hr, op_bind_ok (op_update _ _),
      op_bind_ok (readOrAbort_ok (n := 2) (pol := .none) (bs := c.crc) (rest := rest) rfl hcrc)]
    rfl
  · simp [h1.same.mem]
  · refine ⟨?_, rfl, ?_, ?_⟩
    · simp [h1.trace, CardBlock.events, Config.sectorSize]
    · simp [h1.cs]
    · constructor <;> simp [h1.same.session, h1.same.isHc, h1.same.lastOk, h1.same.table,
        h1.same.tableBuilt, h1.same.clock, h1.same.iter, h1.same.k, h1.same.cause, h1.same.seq, h1.same.mem,
        h1.same.params, h1.same.clockAnswers, h1.same.requests]

/-- A sent block (R183). -/
theorem sendBlock_ok {token : BlockToken} {buf : Buffer} {off : Nat} {s : State} {rest : List Answer}
    (he : s.env = okAnswer :: okAnswer :: okAnswer :: rest) :
    ∃ t, sendBlock token buf off s = .ok () t ∧
      Talked s t [wrote [tokenByte token], wrote (s.memRead buf off 512), wrote [0xFF, 0xFF]] rest s.cs := by
  have h1 := talked_exchanged .none true (wrote [tokenByte token]) (okAnswer :: okAnswer :: rest) s
  have h2 := h1.trans (talked_exchanged .none true (wrote (s.memRead buf off 512)) (okAnswer :: rest) _)
  have h3 := h2.trans (talked_exchanged .none true (wrote [0xFF, 0xFF]) rest _)
  refine ⟨_, ?_, h3⟩
  unfold sendBlock
  rw [op_bind_ok (writeOrAbort_ok he), op_bind_ok (op_get _), op_bind_ok (writeOrAbort_ok rfl), writeOrAbort_ok rfl]
  rfl

/-- An accepted data response (R181). -/
theorem checkDataResponse_ok {b : Byte} {s : State} {rest : List Answer} (he : s.env = .ok [b] :: rest)
    (hb : dataAccepted b = true) :
    ∃ t, checkDataResponse s = .ok () t ∧ Talked s t [byteRead b] rest s.cs := by
  refine ⟨_, ?_, talked_exchanged .none true (byteRead b) rest s⟩
  unfold checkDataResponse
  rw [op_bind_ok (readByteOrAbort_ok he)]
  simp [require, hb]
  rfl

/-- A rejected data response. -/
theorem checkDataResponse_rejected {b : Byte} {s : State} {rest : List Answer} (he : s.env = .ok [b] :: rest)
    (hb : dataAccepted b = false) :
    ∃ t, checkDataResponse s = .error (.abort .dataRejected) t ∧ Talked s t [byteRead b] rest s.cs := by
  refine ⟨_, ?_, talked_exchanged .none true (byteRead b) rest s⟩
  unfold checkDataResponse
  rw [op_bind_ok (readByteOrAbort_ok he)]
  simp [require, hb]
  rfl

/-! ### The abort path -/

/-- The abort path after the calls an operation made (R236 to R239). -/
theorem aborted_after {s t : State} {c : AbortCause} {es : List Event} {ok : Bool} {rest : List Answer} {cs : ChipSelect}
    (h : Talked s t es (cleanupAnswer ok :: rest) cs) : AbortedWith s ((t.abort c).returning .failed) c es ok rest := by
  cases ok with
  | true =>
    rw [abort_ok (bs := []) (rest := rest) h.env]
    refine ⟨rfl, rfl, rfl, rfl, rfl, ?_, rfl, ?_, h.same.isHc, h.same.clock, h.same.mem, ?_⟩
    · show t.trace ++ [releaseEvent] = _
      rw [h.trace]; rfl
    · simp [sessionAfterAbort, h.same.session]
    · exact ⟨h.same.table, h.same.tableBuilt, h.same.params, h.same.clockAnswers, h.same.requests⟩
  | false =>
    rw [abort_fail (rest := rest) h.env]
    refine ⟨rfl, rfl, rfl, rfl, rfl, ?_, rfl, by simp, h.same.isHc, h.same.clock, h.same.mem, ?_⟩
    · show t.trace ++ [_] = _
      rw [h.trace]
    · exact ⟨h.same.table, h.same.tableBuilt, h.same.params, h.same.clockAnswers, h.same.requests⟩

/-- An operation run alone that aborts after these calls. -/
theorem runAlone_aborted {α : Type} {op : Op α} {ret : α → Result} {s t : State} {c : AbortCause} {es : List Event}
    {ok : Bool} {rest : List Answer} {cs : ChipSelect} (ho : op s = .error (.abort c) t)
    (h : Talked s t es (cleanupAnswer ok :: rest) cs) :
    ∃ u, runAlone op ret s = .next u ∧ AbortedWith s u c es ok rest := ⟨_, runAlone_abort ho, aborted_after h⟩

/-- Setting the result changes nothing the calls are told by. -/
theorem talked_returning {s t : State} {es : List Event} {rest : List Answer} {cs : ChipSelect}
    (h : Talked s t es rest cs) (r : Result) : Talked s (t.returning r) es rest cs :=
  ⟨h.trace, h.env, h.cs, h.same.trans ⟨rfl, rfl, rfl, rfl, rfl, rfl, rfl, rfl, rfl, rfl, rfl, rfl, rfl, rfl⟩⟩

/-- Calls made from a state whose next answers were set are told from the state itself. -/
theorem talked_deliver {s t : State} {answers : List Answer} {es : List Event} {rest : List Answer} {cs : ChipSelect}
    (h : Talked (s.deliver answers) t es rest cs) : Talked s t es rest cs :=
  ⟨h.trace, h.env, h.cs, ⟨h.same.session, h.same.isHc, h.same.lastOk, h.same.table, h.same.tableBuilt, h.same.clock,
    h.same.iter, h.same.k, h.same.cause, h.same.seq, h.same.mem, h.same.params, h.same.clockAnswers, h.same.requests⟩⟩

/-- An operation that goes on to its end (R162, R172). -/
theorem ended_after {s t : State} {es : List Event} {rest : List Answer}
    (h : Talked s t es rest .deasserted) : EndedOk s (t.settleOk.returning .ok) es rest :=
  ⟨rfl, rfl, rfl, h.cs, h.trace, h.env, h.same.cause,
    ⟨h.same.table, h.same.tableBuilt, h.same.params, h.same.clockAnswers, h.same.requests⟩⟩

end Sys2Proof.Laws
end

