-- ==== Sys2Proof/Machine/Transcript.lean ====
section
/-! DEFINITION. The transcript notation of 30_encoding R88: a recorded event as the line the spec writes for it. -/

namespace Sys2Proof.Machine

/-- A hexadecimal digit. -/
def hexDigit (n : Nat) : String := ("0123456789ABCDEF".toList.getD n '?').toString

/-- A byte as two hexadecimal digits. -/
def hexByte (b : Byte) : String := hexDigit (b.toNat / 16) ++ hexDigit (b.toNat % 16)

/-- A byte sequence in brackets. -/
def bracketed (bs : List Byte) : String := "[" ++ String.intercalate " " (bs.map hexByte) ++ "]"

/-- The bytes of a write. One of 100 bytes or more that are all 0xFF, as the wake write is, is shortened to `FFx<n>` (log
entry 25). -/
def writtenBytes (bs : List Byte) : String :=
  if Config.minWake ≤ bs.length ∧ bs.all (· == 0xFF) then "FFx" ++ toString bs.length else bracketed bs

/-- A policy letter. -/
def policyLetter : Policy → String
  | .none => "N"
  | .assert => "A"
  | .deassert => "D"

/-- A clock rate's name. -/
def rateName : Rate → String
  | .slow => "SLOW_RATE"
  | .fast => "FAST_RATE"

/-- The mark of a failed call. -/
def failMark (ok : Bool) : String := if ok then "" else " FAIL"

/-- The answer to a read. -/
def readAnswer : Option (List Byte) → String
  | some bs => " -> " ++ bracketed bs
  | none => " FAIL"

/-- A policy's name. -/
def policyName : Policy → String
  | .none => "NONE"
  | .assert => "ASSERT"
  | .deassert => "DEASSERT"

/-- The answer of a simultaneous read and write, as R123 records it. -/
def answerTerm : Option (List Byte) → String
  | some bs => "OK(" ++ bracketed bs ++ ")"
  | none => "FAIL"

/-- The transcript line of an event. R88 gives a ReadWrite event no form; it is written as 95_test_vectors V7 writes it, and
its FAIL in the same form (DEDUCED, log entry 22). -/
def Event.line : Event → String
  | .write bs pol ok => "W/" ++ policyLetter pol ++ " " ++ writtenBytes bs ++ failMark ok
  | .read n pol ans => "R/" ++ policyLetter pol ++ " " ++ toString n ++ readAnswer ans
  | .readWrite out pol ans =>
    "ReadWrite(" ++ bracketed out ++ ", " ++ policyName pol ++ ", " ++ answerTerm ans ++ ")"
  | .setClock rate ok => "CLK " ++ rateName rate ++ failMark ok

/-- The transcript of a trace, one line an event. -/
def transcript (trace : List Event) : List String := trace.map Event.line

end Sys2Proof.Machine
end

