-- ==== Sys2Proof/Tests/Slice0.lean ====
section
/-! SUPPORT. The model's own tests. Expected results come from spec/: the words from 30_encoding R83 and 95_test_vectors,
the traces and results from 95_test_vectors V1 to V20 and the worked examples of the rules. The witnesses show that the
hypotheses of each statement can be met, clause by clause. -/

namespace Sys2Proof.Tests

open Sys2Proof.Machine

/-- The outcome is a next state with this property. -/
def holds (o : Host.Outcome State Fault Refusal) (p : State → Bool) : Bool :=
  match o with
  | .next t => p t
  | .fault _ | .refused _ => false

/-- The outcome is this fault. -/
def faultsWith (o : Host.Outcome State Fault Refusal) (f : Fault) : Bool :=
  match o with
  | .fault g => g = f
  | .next _ | .refused _ => false

/-- The outcome is this refusal. -/
def refusesWith (o : Host.Outcome State Fault Refusal) (r : Refusal) : Bool :=
  match o with
  | .refused q => q = r
  | .next _ | .fault _ => false

theorem next_of_holds {o : Host.Outcome State Fault Refusal} {p : State → Bool} (h : holds o p = true) :
    ∃ t, o = .next t ∧ p t = true := by
  cases o with
  | next t => exact ⟨t, rfl, h⟩
  | fault f => cases h
  | refused r => cases h

/-- The reset state with these answers to come. -/
def withAnswers (answers : List Answer) : State := { State.reset with env := answers }

/-- A ready card, high-capacity or not, with these answers to come. -/
def readyCard (hc : Bool) (answers : List Answer) : State :=
  { withAnswers answers with session := .ready, isHc := some hc, clock := .at .fast }

/-- A position of the sequencer with these answers to come. -/
def standing (seq : Seq) (answers : List Answer) : State := { withAnswers answers with seq := seq }

/-- A one-byte answer. -/
def one (b : Byte) : Answer := .ok [b]

/-- A buffer of two sectors. -/
def buffer : Buffer := { base := 0x1000, len := 1024 }

/-- A buffer one byte short of two sectors. -/
def shortBuffer : Buffer := { base := 0x1000, len := 1023 }

/-- The answers of a card that initializes at once; `top` is the first OCR byte of step 6. -/
def initAnswers (top : Byte) : List Answer :=
  [okAnswer, okAnswer, okAnswer, one 0x01, okAnswer, okAnswer, one 0x01, .ok [0x00, 0x00, 0x01, 0xAA], okAnswer,
   okAnswer, one 0x01, .ok [0x00, 0xFF, 0x80, 0x00], okAnswer] ++
  [okAnswer, one 0x01, okAnswer, okAnswer, one 0x00, okAnswer] ++
  [okAnswer, one 0x00, .ok [top, 0xFF, 0x80, 0x00], okAnswer, okAnswer]

/-! ### Well-formedness: each check refuses an ill-formed term -/

theorem test_wellFormed_refuses_idle_responses :
    Instr.wellFormed (.r1 0xFF) = false ∧ Instr.wellFormed (.r3 0xFF 0) = false ∧
    Instr.wellFormed (.r7 0xFF 0) = false ∧ Instr.wellFormed (.r1 0xFE) = true := by decide

theorem test_wellFormed_refuses_short_buffers :
    Instr.wellFormed (.hostRead 0 shortBuffer 0 2) = false ∧ Instr.wellFormed (.hostWrite 0 shortBuffer 0 2) = false ∧
    Instr.wellFormed (.receiveBlock shortBuffer 512) = false ∧
    Instr.wellFormed (.sendBlock .multi shortBuffer 512) = false ∧
    Instr.wellFormed (.readSingle { base := 0, len := 511 } 0) = false ∧
    Instr.wellFormed (.writeSingle { base := 0, len := 511 } 0) = false ∧
    Instr.wellFormed (.readMulti shortBuffer 0 2) = false ∧ Instr.wellFormed (.writeMulti shortBuffer 0 2) = false := by
  decide

theorem test_wellFormed_refuses_single_sector_multi :
    Instr.wellFormed (.readMulti buffer 0 1) = false ∧ Instr.wellFormed (.writeMulti buffer 0 1) = false := by decide

theorem test_wellFormed_refuses_wide_operands :
    Instr.wellFormed (.fold 128 0) = false ∧ Instr.wellFormed (.assemble 64 0) = false ∧
    Instr.wellFormed (.sendCmd 1 0 .r1) = false := by decide

theorem test_wellFormed_refuses_empty_transfers :
    Instr.wellFormed (.xferWrite [] .none) = false ∧ Instr.wellFormed (.xferReadWrite [] .none) = false ∧
    Instr.wellFormed (.xferRead 0 .none) = false := by decide

/-! ### Decoding: every unit of the wire, its bytes written out from R70 to R83 and V5 -/

theorem test_decode_constant_frames :
    decode .command [0x40, 0x00, 0x00, 0x00, 0x00, 0x95] = .ok .cmd0 ∧
    decode .command [0x48, 0x00, 0x00, 0x01, 0xAA, 0x87] = .ok .cmd8 ∧
    decode .command [0x4C, 0x00, 0x00, 0x00, 0x00, 0x61] = .ok .cmd12 ∧
    decode .command [0x77, 0x00, 0x00, 0x00, 0x00, 0x65] = .ok .cmd55 ∧
    decode .command [0x7A, 0x00, 0x00, 0x00, 0x00, 0xFD] = .ok .cmd58 ∧
    decode .command [0x69, 0x40, 0x00, 0x00, 0x00, 0x77] = .ok .acmd41 := by decide +kernel

theorem test_decode_argument_frames :
    decode .command [0x51, 0x00, 0x00, 0x00, 0x05, 0x0F] = .ok (.cmd17 5) ∧
    decode .command [0x52, 0x00, 0x00, 0x0A, 0x00, 0x7D] = .ok (.cmd18 2560) ∧
    decode .command [0x58, 0x00, 0x00, 0x0A, 0x00, 0xF3] = .ok (.cmd24 2560) ∧
    decode .command [0x59, 0x00, 0x00, 0x00, 0x05, 0x59] = .ok (.cmd25 5) ∧
    decode .command [0x57, 0x00, 0x00, 0x00, 0x02, 0x0B] = .ok (.acmd23 2) := by decide +kernel

theorem test_decode_bytes :
    decode .token [0xFE] = .ok .tokenStartBlock ∧ decode .token [0xFC] = .ok .tokenStartMultiWrite ∧
    decode .token [0xFD] = .ok .tokenStopTran ∧ decode .dataResponse [0xE5] = .ok (.dataResponseAccepted 0b1110#4) ∧
    decode .dataResponse [0x05] = .ok (.dataResponseAccepted 0b0000#4) ∧ decode .response1 [0x01] = .ok (.r1 0x01) := by
  decide

theorem test_decode_five_bytes :
    decode .response3 [0x00, 0xC0, 0xFF, 0x80, 0x00] = .ok (.r3 0x00 0xC0FF8000) ∧
    decode .response7 [0x01, 0x00, 0x00, 0x01, 0xAA] = .ok (.r7 0x01 426) := by decide

theorem test_decode_rejects_by_name :
    decode .command [0x40, 0x00, 0x00, 0x00, 0x00, 0x97] = .error .badCrc ∧
    decode .command [0x00, 0x00, 0x00, 0x00, 0x00, 0x95] = .error .badStartBits ∧
    decode .command [0x40, 0x00, 0x00, 0x00, 0x00, 0x94] = .error .badStopBit ∧
    decode .command (encodeFrame 1 0) = .error (.commandNotSent 1) ∧
    decode .command (encodeFrame 0 1) = .error (.badArgument 0) ∧ decode .command [0x40] = .error (.badLength 1) ∧
    decode .token [0x0B] = .error .notAToken ∧ decode .dataResponse [0x0B] = .error .notAccepted ∧
    decode .response1 [0xFF] = .error .busIdle := by decide +kernel

theorem test_table_words :
    decodeTableWord 48 0x510000000001 = some (.cmd17 0) ∧ decodeTableWord 48 0x510000000000 = none ∧
    decodeTableWord 48 0x400000000097 = none ∧ decodeTableWord 48 0x570000000201 = some (.acmd23 2) ∧
    decodeTableWord 48 0x400000000095 = some .cmd0 ∧ decodeTableWord 48 0x48000001AA87 = some .cmd8 ∧
    decodeTableWord 8 0xFE = some .tokenStartBlock ∧ decodeTableWord 8 0x05 = some (.dataResponseAccepted 0) ∧
    decodeTableWord 8 0x01 = some (.r1 0x01) ∧ decodeTableWord 8 0xFF = none ∧
    decodeTableWord 40 0x01000001AA = some (.r7 0x01 426) ∧
    decodeTableWord 40 0x00C0FF8000 = some (.r3 0x00 0xC0FF8000) := by decide +kernel

/-! ### The CRC-7 engine and the framer (V1 to V5) -/

theorem test_table_entries :
    builtTable[0x01] = 0x09 ∧ builtTable[0x80] = 0x41 ∧ builtTable[0x40] = 0x64 ∧ builtTable[0xFF] = 0x79 := by
  decide +kernel

theorem test_frame_of_index_63 : frameWith builtTable 63 0xFFFFFFFF = [0x7F, 0xFF, 0xFF, 0xFF, 0xFF, 0x19] := by
  decide +kernel

/-! ### One step of each kind -/

/-- V20. -/
theorem test_timestamp :
    holds (exec .hostTimestamp { State.reset with clockAnswers := [⟨2024, 3, 15, 12, 34, 56⟩] })
      (fun t => t.result = .word 0x586F645C) = true := by decide +kernel

/-- R170's example. -/
theorem test_address_for_five :
    holds (exec (.addressFor 5) (readyCard false [])) (fun t => t.result = .word 2560) = true ∧
    holds (exec (.addressFor 5) (readyCard true [])) (fun t => t.result = .word 5) = true := by decide +kernel

/-- R140's example. -/
theorem test_send_cmd :
    holds (exec (.sendCmd 0 0 .r1) (withAnswers [okAnswer, one 0xFF, one 0x01])) (fun t =>
      t.result = .response (.byte 0x01) none && t.trace =
        [.write [0x40, 0x00, 0x00, 0x00, 0x00, 0x95] .assert true, byteRead 0xFF, byteRead 0x01]) = true := by
  decide +kernel

/-- R163 with one iteration, and R164 (5): 24 transport calls. -/
theorem test_initialize :
    holds (exec (.hostInitialize 0) (withAnswers (initAnswers 0xC0))) (fun t =>
      t.result = .ok && t.session = .ready && t.isHc = some true && t.cs = .deasserted && t.clock = .at .fast &&
        t.trace.length = 24 && t.env = []) = true := by decide +kernel

/-- R164 (3). -/
theorem test_initialize_wrong_echo :
    holds (exec (.hostInitialize 0) (withAnswers [okAnswer, okAnswer, okAnswer, one 0x01, okAnswer, okAnswer, one 0x01,
      .ok [0x00, 0x00, 0x01, 0xAB], okAnswer])) (fun t =>
      t.result = .failed && t.session = .notInitialized && t.cause = some .cmd8BadEcho) = true := by decide +kernel

/-- R182: a data response with low nibble 0b1011. -/
theorem test_write_rejected :
    holds (exec (.hostWrite 0 buffer 5 1) (readyCard false [okAnswer, one 0x00, okAnswer, okAnswer, okAnswer, one 0x0B,
      okAnswer])) (fun t =>
      t.result = .failed && t.session = .ready && t.cause = some .dataRejected && t.trace.length = 7) = true := by
  decide +kernel

/-- R239: the cleanup after a failed release fails too. -/
theorem test_release_and_cleanup_fail :
    holds (exec .release (readyCard true [.fail, .fail])) (fun t =>
      t.result = .failed && t.session = .notInitialized && t.cause = some .transport && t.cs = .unknown &&
        t.trace.length = 2) = true := by decide +kernel

/-- R215 (b), at the largest supported sector and above it. -/
theorem test_range_check :
    holds (exec (.hostRead 0 buffer 0x800000 1) (readyCard false [])) (fun t =>
      t.result = .rejected .outOfRange && t.trace = []) = true ∧
    holds (exec (.hostRead 0 buffer 0x7FFFFF 1) (readyCard false [.fail, okAnswer])) (fun t =>
      t.result = .failed && t.trace.length = 2) = true := by decide +kernel

/-- R8: the first three steps of a call from reset select the clock, wake the card, send CMD0. -/
theorem test_steps_of_a_call :
    holds (runSteps 4 { withAnswers [okAnswer, okAnswer, okAnswer] with requests := [.start (.hostRead 0 buffer 5 1)] })
      (fun t => t.trace = [.setClock .slow true, wrote (List.replicate 100 0xFF),
        .write [0x40, 0x00, 0x00, 0x00, 0x00, 0x95] .assert true] && t.session = .initializing) = true := by
  decide +kernel

/-- R8: the steps of CMD17 run alone: its beginning, the frame, one read, the check. -/
theorem test_steps_of_a_frame :
    holds (runSteps 4 { withAnswers [okAnswer, one 0x00] with requests := [.wire .command [0x51, 0x00, 0x00, 0x0A, 0x00, 0xC9]] })
      (fun t => t.result = .response (.byte 0x00) none && t.seq = .idle && t.cs = .asserted && t.trace =
        [.write [0x51, 0x00, 0x00, 0x0A, 0x00, 0xC9] .assert true, byteRead 0x00]) = true := by decide +kernel

/-- R87, R143: a byte that is no token fails the step that reads it; the cleanup follows. -/
theorem test_wrong_token_is_an_abort :
    holds (runSteps 3 { withAnswers [okAnswer] with requests := [.wire .token [0x08]] }) (fun t =>
      t.result = .failed && t.cause = some .badToken && t.trace = [byteRead 0x08, releaseEvent]) = true := by
  decide +kernel

/-- R87, R181. -/
theorem test_wrong_data_response_is_an_abort :
    holds (runSteps 3 { withAnswers [okAnswer] with requests := [.wire .dataResponse [0x0B]] }) (fun t =>
      t.result = .failed && t.cause = some .dataRejected && t.trace = [byteRead 0x0B, releaseEvent]) = true := by
  decide +kernel

/-- R79, R141: 0xFF is the idle bus, and the poll goes on. -/
theorem test_idle_byte_goes_on :
    holds (runSteps 4 { withAnswers [one 0x01] with requests := [.wire .response1 [0xFF]] }) (fun t =>
      t.result = .response (.byte 0x01) none && t.trace = [byteRead 0xFF, byteRead 0x01]) = true := by decide +kernel

/-- R86: the framer can frame any index; V4's frame of index 63. -/
theorem test_other_frames_are_sent_bare :
    holds (runSteps 4 { withAnswers [okAnswer, one 0x04] with
      requests := [.wire .command [0x7F, 0xFF, 0xFF, 0xFF, 0xFF, 0x19]] }) (fun t =>
      t.result = .response (.byte 0x04) none && t.trace =
        [.write [0x7F, 0xFF, 0xFF, 0xFF, 0xFF, 0x19] .assert true, byteRead 0x04]) = true := by decide +kernel

/-- V7 and R88. -/
theorem test_transcript_lines :
    transcript [.write [0xFF] .deassert false, .read 1 .none (some [0x01]), .readWrite [0xFF] .none (some [0xFE]),
      .setClock .fast false] =
      ["W/D [FF] FAIL", "R/N 1 -> [01]", "ReadWrite([FF], NONE, OK([FE]))", "CLK FAST_RATE FAIL"] := by decide +kernel

/-- R242, R243. -/
theorem test_stops :
    refusesWith (exec (.assemble 64 0) State.reset) .commandIndexOutOfRange = true ∧
    refusesWith (exec (.hostRead 0 shortBuffer 0 2) State.reset) .bufferTooShort = true ∧
    refusesWith (exec .hostTimestamp { State.reset with clockAnswers := [⟨1979, 3, 15, 12, 34, 56⟩] })
      .timestampOutOfRange = true ∧
    refusesWith (exec (.hostStatus 0) (standing (.bringUp none .wake) [])) .callInProgress = true ∧
    faultsWith (exec (.fold 0 0) { State.reset with tableBuilt := false }) .tableUnbuilt = true := by decide +kernel

/-- 93 U2: right after reset the addressing mode is any value. -/
theorem test_addressWithNoValue :
    ∃ hc : Bool, exec (.addressFor 5) State.reset = .next (State.reset.returning (.word (if hc then 5 else 2560))) :=
  ⟨Config.unsetAddressing, rfl⟩

/-! ### Witnesses: states and operands that meet the hypotheses of each statement, clause by clause -/

theorem witness_DecodeOfEncodeIsTheUnit :
    Instr.wellFormed (.cmd17 0xFFFFFFFF) = true ∧ (encode (.cmd17 0xFFFFFFFF)).isSome = true ∧
    Instr.wellFormed (.r1 0xFE) = true ∧ encode (.r1 0xFE) = some (.response1, [0xFE]) := by decide +kernel

theorem witness_EncodeOfDecodeIsTheBytes :
    decode .unclassified [0x05] = .ok (.dataResponseAccepted 0) ∧ decode .token [0xFD] = .ok .tokenStopTran ∧
    decode .unclassified [0x51, 0x00, 0x00, 0x00, 0x05, 0x01] = .ok (.cmd17 5) := by decide

theorem witness_OneInvertedBitIsRefused :
    encode .cmd0 = some (.command, [0x40, 0x00, 0x00, 0x00, 0x00, 0x95]) ∧
    5 < ([0x40, 0x00, 0x00, 0x00, 0x00, 0x95] : List Byte).length ∧ 7 < 8 := by decide +kernel

theorem witness_FoldAdvancesOneByte : State.reset.framing ∧ (0x7F : Byte).toNat < 128 := ⟨⟨rfl, rfl⟩, by decide⟩

theorem witness_ComputeIsBitwiseCrc : State.reset.framing := ⟨rfl, rfl⟩

theorem witness_ComputeFoldsOn :
    State.reset.framing ∧ ∃ c, exec (.compute [0x40]) State.reset = .next (State.reset.returning (.crc c)) := by
  have h : State.reset.framing := ⟨rfl, rfl⟩
  refine ⟨h, computeWith builtTable [0x40], ?_⟩
  simp only [exec, execCompute]
  exact Laws.runAlone_ok (Laws.compute_eq h [0x40])

theorem witness_AssembleMakesTheFrame : State.reset.framing ∧ 63 ≤ 63 := ⟨⟨rfl, rfl⟩, by decide⟩

theorem witness_IndexAbove63IsRefused : 63 < 64 := by decide

theorem witness_UnbuiltTableFaults :
    ({ State.reset with tableBuilt := false } : State).tableBuilt = false ∧ 63 ≤ 63 := by decide


theorem witness_WriteFollowsItsAnswer :
    (withAnswers [.ok [0x12], .fail]).env = .ok [0x12] :: [.fail] ∧ (withAnswers [.fail]).env = .fail :: [] := by decide

theorem witness_ReadsFollowTheirAnswer :
    (withAnswers [.ok [1, 2]]).env = .ok [1, 2] :: [] ∧ ([1, 2] : List Byte).length = 2 ∧
    (withAnswers [.fail]).env = .fail :: [] ∧ ([1, 2] : List Byte).length = ([0xFF, 0xFF] : List Byte).length := by
  decide

theorem witness_ClockFollowsItsAnswer :
    (withAnswers [okAnswer]).env = .ok [] :: [] ∧ (withAnswers [.fail]).env = .fail :: [] := by decide

theorem witness_ResponsePollReturnsTheReply :
    (withAnswers (idleAnswers 7 ++ [one 0x80, .fail])).env = (CardReply.after 7 0x80).answers 8 ++ [.fail] ∧
    (CardReply.after 7 0x80).fits 8 = true ∧ (withAnswers (idleAnswers 8)).env = CardReply.silent.answers 8 ++ [] ∧
    CardReply.silent.fits 8 = true ∧ State.reset.params.nResp = 8 := by decide +kernel

theorem witness_TokenPollClassifiesEveryByte :
    State.reset.params.nToken = 16 ∧ 15 < 16 ∧
    (withAnswers (idleAnswers 15 ++ [one 0xFE])).env = idleAnswers 15 ++ .ok [0xFE] :: [] ∧
    (0x08 : Byte) ≠ 0xFE ∧ (0x08 : Byte) ≠ 0xFF ∧
    (withAnswers (idleAnswers 15 ++ [one 0x08, okAnswer])).env = idleAnswers 15 ++ .ok [0x08] :: cleanupAnswer true :: [] ∧
    (withAnswers (idleAnswers 16 ++ [.fail])).env = idleAnswers 16 ++ cleanupAnswer false :: [] := by decide +kernel

theorem witness_BusyWaitEndsOnIdle :
    busyFits State.reset.params (List.replicate 15 0x00) = true ∧
    (withAnswers (busyAnswers (List.replicate 15 0x00))).env = busyAnswers (List.replicate 15 0x00) ++ [] ∧
    (List.replicate 16 (0x00 : Byte)).length = State.reset.params.nBusy ∧
    (∀ b ∈ List.replicate 16 (0x00 : Byte), b ≠ 0xFF) ∧
    (withAnswers ((List.replicate 16 (0x00 : Byte)).map (fun b => .ok [b]) ++ [okAnswer])).env =
      (List.replicate 16 (0x00 : Byte)).map (fun b => .ok [b]) ++ cleanupAnswer true :: [] := by decide +kernel

theorem witness_SendCmdReturnsTheReply :
    (withAnswers (txAnswers Params.reset (.after 7 0x00))).framing ∧ 63 ≤ 63 ∧
    (CardReply.after 7 0x00).fits State.reset.params.nResp = true ∧
    (withAnswers (txAnswers Params.reset (.after 7 0x00))).env = txAnswers State.reset.params (.after 7 0x00) ++ [] ∧
    (withAnswers (txAnswers Params.reset .silent)).env = txAnswers State.reset.params .silent ++ [] :=
  ⟨⟨rfl, rfl⟩, by decide +kernel, by decide +kernel, by decide +kernel, by decide +kernel⟩

theorem witness_TrailingBytesAreReadInOneCall :
    (withAnswers (okAnswer :: (idleAnswers 7 ++ .ok [0x01] :: .ok [1, 2, 3, 4] :: []))).framing ∧ 63 ≤ 63 ∧
    7 < State.reset.params.nResp ∧ (0x01 : Byte) ≠ 0xFF ∧
    (withAnswers (okAnswer :: (idleAnswers 7 ++ .ok [0x01] :: .ok [1, 2, 3, 4] :: []))).env =
      okAnswer :: (idleAnswers 7 ++ .ok [0x01] :: .ok [1, 2, 3, 4] :: []) ∧
    (withAnswers (txAnswers Params.reset .silent)).env = txAnswers State.reset.params .silent ++ [] :=
  ⟨⟨rfl, rfl⟩, by decide, by decide, by decide, by decide, by decide⟩

theorem witness_TransportFailureAborts :
    (withAnswers [.fail, okAnswer]).framing ∧ 63 ≤ 63 ∧
    (withAnswers [.fail, okAnswer]).env = .fail :: cleanupAnswer true :: [] ∧ 7 < State.reset.params.nResp ∧
    (withAnswers (idleAnswers 7 ++ [.fail, .fail])).env = idleAnswers 7 ++ .fail :: cleanupAnswer false :: [] ∧
    (0x05 : Byte) ≠ 0xFF ∧
    (withAnswers (okAnswer :: (idleAnswers 7 ++ [one 0x05, .fail, okAnswer]))).env =
      okAnswer :: (idleAnswers 7 ++ .ok [0x05] :: .fail :: cleanupAnswer true :: []) ∧
    15 < State.reset.params.nToken ∧ (List.replicate 15 (0x00 : Byte)).length < State.reset.params.nBusy ∧
    (∀ c ∈ List.replicate 15 (0x00 : Byte), c ≠ 0xFF) ∧ buffer.holdsSectorAt 512 = true ∧
    (withAnswers []).mem.wf = true ∧ (List.replicate 512 (0xA5 : Byte)).length = 512 ∧
    (withAnswers (idleAnswers 15 ++ [one 0xFE, .ok (List.replicate 512 0xA5), .fail, okAnswer])).env =
      idleAnswers 15 ++ .ok [0xFE] :: .ok (List.replicate 512 0xA5) :: .fail :: cleanupAnswer true :: [] ∧
    (withAnswers [okAnswer, okAnswer, .fail, .fail]).env = okAnswer :: okAnswer :: .fail :: cleanupAnswer false :: [] :=
  ⟨⟨rfl, rfl⟩, by decide, by decide, by decide, by decide, by decide, by decide, by decide, by decide, by decide, by decide,
    rfl, List.length_replicate, by decide +kernel, by decide⟩

theorem witness_ReleaseAndCleanupDeassert : (withAnswers [okAnswer]).env = okAnswer :: [] := by decide

/-- The sequencer position of the CMD58 of step 6. -/
def atPowerOcr : Seq := .bringUp none (.tx .ocrPower (.frame 0))

/-- The sequencer position of the pre-erase CMD55. -/
def atPreErase : Seq := .transfer (.ofCall .write buffer 5 2) (.tx .appErase (.frame 0))

theorem witness_InitializationFramesPass :
    State.reset.framing ∧ 7 < State.reset.params.nResp ∧
    (withAnswers (txAnswers Params.reset (.after 7 0x01) ++ [okAnswer])).env =
      txAnswers State.reset.params (.after 7 0x01) ++ okAnswer :: [] ∧
    (withAnswers (wideAnswers 7 0x01 426 ++ [okAnswer])).env = wideAnswers 7 0x01 426 ++ okAnswer :: [] ∧
    (withAnswers []).seq.tx ≠ some (.init .ocrPower) ∧ (0x80 : Byte) ≠ 0xFF ∧
    (0x00100000 : Word).getLsbD 20 = true ∧
    (withAnswers (wideAnswers 7 0x80 0x00100000 ++ [okAnswer])).env = wideAnswers 7 0x80 0x00100000 ++ okAnswer :: [] ∧
    (standing atPowerOcr []).seq.tx = some (.init .ocrPower) ∧ (0x80000000 : Word).getLsbD 31 = true ∧
    (standing atPowerOcr (wideAnswers 7 0x80 0x80000000 ++ [okAnswer])).env =
      wideAnswers 7 0x80 0x80000000 ++ okAnswer :: [] :=
  ⟨⟨rfl, rfl⟩, by decide, by decide, by decide, by decide, by decide, by decide, by decide, by decide, by decide,
    by decide⟩

theorem witness_InitializationFramesAbort :
    State.reset.framing ∧ 7 < State.reset.params.nResp ∧ (0x00 : Byte) ≠ 0xFF ∧ (0x00 : Byte) ≠ 0x01 ∧
    (withAnswers (txAnswers Params.reset (.after 7 0x00) ++ [okAnswer])).env =
      txAnswers State.reset.params (.after 7 0x00) ++ cleanupAnswer true :: [] ∧
    (withAnswers (wideAnswers 7 0x00 426 ++ [.fail])).env = wideAnswers 7 0x00 426 ++ cleanupAnswer false :: [] ∧
    (427 : Word) ≠ 426 ∧
    (withAnswers (wideAnswers 7 0x01 427 ++ [okAnswer])).env = wideAnswers 7 0x01 427 ++ cleanupAnswer true :: [] ∧
    (withAnswers []).seq.tx ≠ some (.init .ocrPower) ∧ (0xFFEFFFFF : Word).getLsbD 20 = false ∧
    (standing atPowerOcr []).seq.tx = some (.init .ocrPower) ∧ (0x7FFFFFFF : Word).getLsbD 31 = false ∧
    (withAnswers (wideAnswers 7 0x00 0xFFEFFFFF ++ [okAnswer])).env =
      wideAnswers 7 0x00 0xFFEFFFFF ++ cleanupAnswer true :: [] ∧
    (withAnswers (wideAnswers 7 0x00 0xFFEFFFFF ++ [okAnswer])).seq.tx ≠ some (.init .ocrPower) ∧
    (standing atPowerOcr (wideAnswers 7 0x00 0x7FFFFFFF ++ [.fail])).env =
      wideAnswers 7 0x00 0x7FFFFFFF ++ cleanupAnswer false :: [] ∧
    (standing atPowerOcr (wideAnswers 7 0x00 0x7FFFFFFF ++ [.fail])).seq.tx = some (.init .ocrPower) ∧
    (standing atPowerOcr []).framing ∧ 7 < (standing atPowerOcr []).params.nResp ∧
    (withAnswers []).seq.tx ≠ some (.io .appErase) ∧
    (withAnswers (txAnswers Params.reset (.after 7 0x04) ++ [okAnswer])).env =
      txAnswers State.reset.params (.after 7 0x04) ++ cleanupAnswer true :: [] ∧
    (withAnswers (txAnswers Params.reset .silent ++ [okAnswer])).env =
      txAnswers State.reset.params .silent ++ cleanupAnswer true :: [] :=
  ⟨⟨rfl, rfl⟩, by decide, by decide, by decide, by decide, by decide, by decide, by decide, by decide, by decide,
    by decide, by decide, by decide, by decide, by decide, by decide, ⟨rfl, rfl⟩, by decide, by decide, by decide,
    by decide⟩

theorem witness_AppCommandFramesGoOn :
    State.reset.framing ∧ (CardReply.after 7 0x05).fits State.reset.params.nResp = true ∧
    (withAnswers (txAnswers Params.reset (.after 7 0x05) ++ [okAnswer])).env =
      txAnswers State.reset.params (.after 7 0x05) ++ okAnswer :: [] ∧
    (CardReply.after 7 0x05).resp ≠ .byte 0x04 ∧
    (standing atPreErase (txAnswers Params.reset (.after 0 0x04) ++ [okAnswer])).seq.tx = some (.io .appErase) ∧
    (CardReply.after 0 0x04).fits State.reset.params.nResp = true :=
  ⟨⟨rfl, rfl⟩, by decide, by decide, by decide, by decide, by decide⟩

theorem witness_DataCommandFramesRequireZero :
    State.reset.framing ∧ 7 < State.reset.params.nResp ∧
    (withAnswers (txAnswers Params.reset (.after 7 0x00))).env = txAnswers State.reset.params (.after 7 0x00) ++ [] ∧
    (0x01 : Byte) ≠ 0x00 ∧ (0x01 : Byte) ≠ 0xFF ∧
    (withAnswers (txAnswers Params.reset (.after 7 0x01) ++ [okAnswer])).env =
      txAnswers State.reset.params (.after 7 0x01) ++ cleanupAnswer true :: [] ∧
    (withAnswers (txAnswers Params.reset .silent ++ [.fail])).env =
      txAnswers State.reset.params .silent ++ cleanupAnswer false :: [] :=
  ⟨⟨rfl, rfl⟩, by decide, by decide, by decide, by decide, by decide, by decide⟩

theorem witness_StopCommandWaitsForIdle :
    State.reset.framing ∧ 7 < State.reset.params.nResp ∧
    busyFits State.reset.params (List.replicate 15 0x00) = true ∧
    (withAnswers (txAnswers Params.reset (.after 7 0x00) ++ busyAnswers (List.replicate 15 0x00) ++ [okAnswer])).env =
      txAnswers State.reset.params (.after 7 0x00) ++ busyAnswers (List.replicate 15 0x00) ++ okAnswer :: [] ∧
    (0x7F : Byte) ≠ 0x00 ∧ (0x7F : Byte) ≠ 0xFF ∧
    (List.replicate 16 (0x00 : Byte)).length = State.reset.params.nBusy ∧
    (∀ c ∈ List.replicate 16 (0x00 : Byte), c ≠ 0xFF) ∧
    (withAnswers (txAnswers Params.reset .silent ++ [okAnswer])).env =
      txAnswers State.reset.params .silent ++ cleanupAnswer true :: [] :=
  ⟨⟨rfl, rfl⟩, by decide, by decide, by decide, by decide, by decide, by decide, by decide, by decide⟩

/-- The sequencer position of the start token of a single write. -/
def atStartToken : Seq := .transfer (.ofCall .write buffer 5 1) (.data .sendToken)

theorem witness_TokensAreSentOrReceived :
    (standing atStartToken [okAnswer]).seq.sendsToken = true ∧ (standing atStartToken [okAnswer]).env = okAnswer :: [] ∧
    (withAnswers []).seq.sendsToken = false ∧ 1 ≤ State.reset.params.nToken ∧
    busyFits State.reset.params [0x00] = true ∧
    (withAnswers (okAnswer :: (busyAnswers [0x00] ++ [okAnswer]))).env =
      okAnswer :: (busyAnswers [0x00] ++ okAnswer :: []) := by decide

theorem witness_ResponsesPassTheirChecks :
    (0xFE : Byte) ≠ 0xFF ∧ 1 ≤ State.reset.params.nResp ∧ (withAnswers []).seq.tx ≠ some (.init .ocrPower) ∧
    (0x00100000 : Word).getLsbD 20 = true ∧ (standing atPowerOcr []).seq.tx = some (.init .ocrPower) ∧
    (0x80000000 : Word).getLsbD 31 = true := by decide

theorem witness_ResponsesFailTheirChecks :
    (0x05 : Byte) ≠ 0xFF ∧ (0x05 : Byte) ≠ 0x01 ∧ 1 ≤ State.reset.params.nResp ∧
    (withAnswers [okAnswer]).env = cleanupAnswer true :: [] ∧ (427 : Word) ≠ 426 ∧
    (withAnswers []).seq.tx ≠ some (.init .ocrPower) ∧ (0xFFEFFFFF : Word).getLsbD 20 = false ∧
    (standing atPowerOcr [okAnswer]).seq.tx = some (.init .ocrPower) ∧ (0x7FFFFFFF : Word).getLsbD 31 = false := by
  decide

/-- A card that answers every poll at the last read of the budget, after these loop rounds. -/
def slowCard (rounds : List (CardReply × CardReply)) : CardInit where
  goIdle    := 7
  ifCond    := 7
  voltageAt := 7
  voltageR1 := 0x80
  voltage   := 0x00100000
  rounds    := rounds
  lastApp   := .silent
  lastOp    := 7
  powerAt   := 7
  powerR1   := 0x80
  power     := 0xC0000000

theorem witness_InitializationCompletes :
    State.reset.framing ∧ (slowCard (List.replicate 1599 (.after 0 0x01, .silent))).passes State.reset.params = true ∧
    (withAnswers ((slowCard []).answers Params.reset)).env = (slowCard []).answers State.reset.params ++ [] ∧
    (withAnswers []).seq = .idle ∧ (withAnswers []).session ≠ .ready :=
  ⟨⟨rfl, rfl⟩, by decide +kernel, by decide +kernel, by decide, by decide⟩

theorem witness_InitializationIsReadyExactlyOnOk :
    (withAnswers [.fail, okAnswer]).env = .fail :: cleanupAnswer true :: [] ∧
    (withAnswers [okAnswer, .fail, .fail]).env = okAnswer :: .fail :: cleanupAnswer false :: [] ∧
    State.reset.framing ∧ (slowCard []).passes State.reset.params = true ∧
    (withAnswers ((slowCard []).slowAnswers Params.reset ++ [.fail, okAnswer])).env =
      (slowCard []).slowAnswers State.reset.params ++ .fail :: cleanupAnswer true :: [] ∧
    (∃ t, exec .sessionInitialize (withAnswers (initAnswers 0xC0)) = .next t ∧ decide (t.result = .ok) = true) ∧
    ∃ t, exec .sessionInitialize (withAnswers [.fail, okAnswer]) = .next t ∧ decide (t.result = .failed) = true :=
  ⟨by decide, by decide, ⟨rfl, rfl⟩, by decide, by decide +kernel, next_of_holds (by decide +kernel), next_of_holds (by decide +kernel)⟩

theorem witness_WrongEchoFailsInitialization :
    State.reset.framing ∧ 7 < State.reset.params.nResp ∧ (427 : Word) ≠ 426 ∧
    (withAnswers ([okAnswer, okAnswer] ++ txAnswers Params.reset (.after 7 0x01) ++ [okAnswer] ++ wideAnswers 7 0x01 427
      ++ [okAnswer])).env = [okAnswer, okAnswer] ++ txAnswers State.reset.params (.after 7 0x01) ++ [okAnswer]
      ++ wideAnswers 7 0x01 427 ++ cleanupAnswer true :: [] :=
  ⟨⟨rfl, rfl⟩, by decide, by decide, by decide⟩

theorem witness_InitializationGivesUpAfter1600Rounds :
    State.reset.framing ∧ (slowCard []).headPasses State.reset.params = true ∧
    (List.replicate 1600 (CardReply.after 0 0x01, CardReply.after 0 0x01)).length = 1600 ∧
    (List.replicate 1600 (CardReply.after 0 0x01, CardReply.after 0 0x01)).all (roundGoesOn State.reset.params) = true :=
  ⟨⟨rfl, rfl⟩, by decide, List.length_replicate, by decide +kernel⟩

theorem witness_SectorCallRunsTheReadyCheckFirst :
    (withAnswers []).seq = .idle ∧ (2 : Word) ≠ 0 ∧ buffer.holds 2 = true ∧ (readyCard true []).session = .ready ∧
    (∃ u, exec .ensureReady (withAnswers (initAnswers 0xC0)) = .next u ∧ decide (u.result = .ok) = true) ∧
    ∃ u, exec .ensureReady (withAnswers [.fail, okAnswer]) = .next u ∧ decide (u.result = .failed) = true :=
  ⟨rfl, by decide, by decide, rfl, next_of_holds (by decide +kernel), next_of_holds (by decide +kernel)⟩

theorem witness_AddressFollowsTheCapacity :
    (readyCard true []).isHc = some true ∧ (readyCard false []).isHc = some false ∧ State.reset.isHc = none := by decide

/-- A received block whose token comes at the last read of the budget. -/
def lateBlock : CardBlock := { wait := 15, payload := List.replicate 512 0xA5, crc := [0x12, 0x34] }

/-- A block accepted after the longest busy time the budget allows. -/
def slowAccept : CardAccept := { response := 0xE5, busy := List.replicate 15 0x00 }

theorem witness_BlocksMoveThroughTheBuffer :
    buffer.holdsSectorAt 512 = true ∧ lateBlock.fits State.reset.params = true ∧ (withAnswers []).mem.wf = true ∧
    (withAnswers lateBlock.answers).env = lateBlock.answers ++ [] ∧
    (withAnswers [okAnswer, okAnswer, okAnswer]).env = okAnswer :: okAnswer :: okAnswer :: [] ∧
    (0xE5 : Byte).extractLsb' 0 4 = 0b0101#4 ∧ (withAnswers [one 0xE5]).env = .ok [0xE5] :: [] ∧
    (0xFF : Byte).extractLsb' 0 4 ≠ 0b0101#4 ∧
    (withAnswers [one 0xFF, okAnswer]).env = .ok [0xFF] :: cleanupAnswer true :: [] := by decide +kernel

theorem witness_SingleReadCompletes :
    (readyCard false []).framing ∧ (readyCard false []).addressing = false ∧ (readyCard false []).mem.wf = true ∧
    ({ base := 0, len := 512 } : Buffer).holds 1 = true ∧ 7 < State.reset.params.nResp ∧
    lateBlock.fits State.reset.params = true ∧
    (readyCard false (txAnswers Params.reset (.after 7 0x00) ++ lateBlock.answers ++ [okAnswer])).env =
      txAnswers State.reset.params (.after 7 0x00) ++ lateBlock.answers ++ okAnswer :: [] ∧
    (readyCard false []).seq = .idle ∧ (readyCard false []).session = .ready ∧ (0x7FFFFF : Word).toNat ≤ 0x7FFFFF :=
  ⟨⟨rfl, rfl⟩, rfl, rfl, by decide, by decide, by decide +kernel, by decide +kernel, rfl, rfl, by decide⟩

theorem witness_MultiReadCompletes :
    (readyCard true []).framing ∧ (readyCard true []).addressing = true ∧ (readyCard true []).mem.wf = true ∧
    2 ≤ (2 : Word).toNat ∧ buffer.holds 2 = true ∧ [lateBlock, lateBlock].length = (2 : Word).toNat ∧
    7 < State.reset.params.nResp ∧ busyFits State.reset.params (List.replicate 15 0x00) = true ∧
    (∀ c ∈ [lateBlock, lateBlock], c.fits State.reset.params = true) ∧
    (readyCard true (txAnswers Params.reset (.after 7 0x00) ++ ([lateBlock, lateBlock].map CardBlock.answers).flatten
      ++ txAnswers Params.reset (.after 7 0x00) ++ busyAnswers (List.replicate 15 0x00) ++ [okAnswer])).env =
      txAnswers State.reset.params (.after 7 0x00) ++ ([lateBlock, lateBlock].map CardBlock.answers).flatten
      ++ txAnswers State.reset.params (.after 7 0x00) ++ busyAnswers (List.replicate 15 0x00) ++ okAnswer :: [] ∧
    (readyCard true []).seq = .idle ∧ (readyCard true []).session = .ready :=
  ⟨⟨rfl, rfl⟩, rfl, rfl, by decide, by decide, by decide, by decide, by decide, by decide +kernel, by decide +kernel, rfl,
    rfl⟩

theorem witness_SingleWriteCompletes :
    (readyCard false []).framing ∧ (readyCard false []).addressing = false ∧
    ({ base := 0, len := 512 } : Buffer).holds 1 = true ∧ 7 < State.reset.params.nResp ∧
    slowAccept.fits State.reset.params = true ∧
    (readyCard false (txAnswers Params.reset (.after 7 0x00) ++ slowAccept.answers ++ [okAnswer])).env =
      txAnswers State.reset.params (.after 7 0x00) ++ slowAccept.answers ++ okAnswer :: [] ∧
    (readyCard false []).seq = .idle ∧ (readyCard false []).session = .ready ∧ (0x7FFFFF : Word).toNat ≤ 0x7FFFFF :=
  ⟨⟨rfl, rfl⟩, rfl, by decide, by decide, by decide, by decide +kernel, rfl, rfl, by decide⟩

theorem witness_MultiWriteCompletes :
    (readyCard true []).framing ∧ (readyCard true []).addressing = true ∧ 2 ≤ (2 : Word).toNat ∧
    buffer.holds 2 = true ∧ [slowAccept, slowAccept].length = (2 : Word).toNat ∧
    CardReply.silent.fits State.reset.params.nResp = true ∧
    (CardReply.after 7 0x04).fits State.reset.params.nResp = true ∧ 7 < State.reset.params.nResp ∧
    busyFits State.reset.params (List.replicate 15 0x00) = true ∧
    (∀ c ∈ [slowAccept, slowAccept], c.fits State.reset.params = true) ∧
    (readyCard true (txAnswers Params.reset .silent ++ [okAnswer] ++ txAnswers Params.reset (.after 7 0x04) ++ [okAnswer]
      ++ txAnswers Params.reset (.after 7 0x00) ++ ([slowAccept, slowAccept].map CardAccept.answers).flatten ++ [okAnswer]
      ++ busyAnswers (List.replicate 15 0x00) ++ [okAnswer])).env =
      txAnswers State.reset.params .silent ++ [okAnswer] ++ txAnswers State.reset.params (.after 7 0x04) ++ [okAnswer]
      ++ txAnswers State.reset.params (.after 7 0x00) ++ ([slowAccept, slowAccept].map CardAccept.answers).flatten
      ++ [okAnswer] ++ busyAnswers (List.replicate 15 0x00) ++ okAnswer :: [] ∧
    (readyCard true []).seq = .idle ∧ (readyCard true []).session = .ready :=
  ⟨⟨rfl, rfl⟩, rfl, by decide, by decide, by decide, by decide, by decide, by decide, by decide, by decide,
    by decide +kernel, rfl, rfl⟩

theorem witness_RejectedSingleWriteIsNotRetried :
    (readyCard false []).framing ∧ (readyCard false []).addressing = false ∧
    ({ base := 0, len := 512 } : Buffer).holds 1 = true ∧ 7 < State.reset.params.nResp ∧
    (0x0B : Byte).extractLsb' 0 4 ≠ 0b0101#4 ∧
    (readyCard false (txAnswers Params.reset (.after 7 0x00) ++ [okAnswer, okAnswer, okAnswer, one 0x0B, okAnswer])).env =
      txAnswers State.reset.params (.after 7 0x00) ++ [okAnswer, okAnswer, okAnswer, .ok [0x0B]]
      ++ cleanupAnswer true :: [] ∧
    (readyCard false []).seq = .idle ∧ (readyCard false []).session = .ready ∧ (0x7FFFFF : Word).toNat ≤ 0x7FFFFF :=
  ⟨⟨rfl, rfl⟩, rfl, by decide, by decide, by decide, by decide, rfl, rfl, by decide⟩

theorem witness_RejectedMultiWriteSendsNoStopToken :
    (readyCard false []).framing ∧ (readyCard false []).addressing = false ∧ buffer.holds 2 = true ∧
    [slowAccept].length < (2 : Word).toNat ∧ CardReply.silent.fits State.reset.params.nResp = true ∧
    7 < State.reset.params.nResp ∧ (∀ c ∈ [slowAccept], c.fits State.reset.params = true) ∧
    (0x0B : Byte).extractLsb' 0 4 ≠ 0b0101#4 ∧
    (readyCard false (txAnswers Params.reset .silent ++ [okAnswer] ++ txAnswers Params.reset .silent ++ [okAnswer]
      ++ txAnswers Params.reset (.after 7 0x00) ++ ([slowAccept].map CardAccept.answers).flatten
      ++ [okAnswer, okAnswer, okAnswer, one 0x0B, .fail])).env =
      txAnswers State.reset.params .silent ++ [okAnswer] ++ txAnswers State.reset.params .silent ++ [okAnswer]
      ++ txAnswers State.reset.params (.after 7 0x00) ++ ([slowAccept].map CardAccept.answers).flatten
      ++ [okAnswer, okAnswer, okAnswer, .ok [0x0B]] ++ cleanupAnswer false :: [] ∧
    2 ≤ (2 : Word).toNat ∧ (readyCard false []).seq = .idle ∧ (readyCard false []).session = .ready ∧
    (0x7FFFFF : Word).toNat ≤ 0x7FFFFF :=
  ⟨⟨rfl, rfl⟩, rfl, by decide, by decide, by decide, by decide, by decide, by decide, by decide +kernel, by decide, rfl, rfl,
    by decide⟩

theorem witness_WrongTokenEndsMultiReadWithoutStop :
    (readyCard true []).framing ∧ (readyCard true []).addressing = true ∧ buffer.holds 2 = true ∧
    [lateBlock].length < (2 : Word).toNat ∧ 7 < State.reset.params.nResp ∧
    (∀ c ∈ [lateBlock], c.fits State.reset.params = true) ∧ 15 < State.reset.params.nToken ∧
    (0x08 : Byte) ≠ 0xFE ∧ (0x08 : Byte) ≠ 0xFF ∧
    (readyCard true (txAnswers Params.reset (.after 7 0x00) ++ ([lateBlock].map CardBlock.answers).flatten
      ++ idleAnswers 15 ++ [one 0x08, okAnswer])).env =
      txAnswers State.reset.params (.after 7 0x00) ++ ([lateBlock].map CardBlock.answers).flatten ++ idleAnswers 15
      ++ .ok [0x08] :: cleanupAnswer true :: [] ∧
    2 ≤ (2 : Word).toNat ∧ (readyCard true []).seq = .idle ∧ (readyCard true []).session = .ready :=
  ⟨⟨rfl, rfl⟩, rfl, by decide, by decide, by decide, by decide +kernel, by decide, by decide, by decide,
    by decide +kernel, by decide, rfl, rfl⟩

theorem witness_SectorFailureKeepsReadyUnlessTransport :
    (readyCard true []).session = .ready ∧
    (∃ t, exec (.hostRead 0 buffer 5 1) (readyCard true [okAnswer, one 0x20, okAnswer]) = .next t ∧
      decide (t.result = .failed ∧ t.session = .ready) = true) ∧
    ∃ t, exec (.writeMulti buffer 5 2) (readyCard true [.fail, okAnswer]) = .next t ∧
      decide (t.result = .failed ∧ t.session = .notInitialized) = true :=
  ⟨rfl, next_of_holds (by decide +kernel), next_of_holds (by decide +kernel)⟩

theorem witness_AbortPathCleansUpOnce :
    (withAnswers [okAnswer]).env = cleanupAnswer true :: [] ∧ (withAnswers [.fail]).env = cleanupAnswer false :: [] := by
  decide

theorem witness_StatusReportsReady :
    State.reset.seq = .idle ∧ ((0 : Nat) = 0 ∧ (readyCard true []).session = .ready) ∧
    ¬ ((1 : Nat) = 0 ∧ (readyCard true []).session = .ready) ∧ ¬ ((0 : Nat) = 0 ∧ State.reset.session = .ready) := by
  decide

theorem witness_SyncIsNoOperation : State.reset.seq = .idle := rfl

/-- The reset state with one answer of the time source. -/
def withTime (c : Calendar) : State := { State.reset with clockAnswers := [c] }

theorem witness_TimestampPacksTheCalendar :
    (withTime ⟨2107, 12, 31, 23, 59, 59⟩).seq = .idle ∧
    (withTime ⟨2107, 12, 31, 23, 59, 59⟩).clockAnswers = ⟨2107, 12, 31, 23, 59, 59⟩ :: [] ∧
    (1980 ≤ 2107 ∧ 2107 ≤ 2107 ∧ 1 ≤ 12 ∧ 12 ≤ 12 ∧ 1 ≤ 31 ∧ 31 ≤ 31 ∧ 23 ≤ 23 ∧ 59 ≤ 59 ∧ 59 ≤ 59) ∧
    (withTime ⟨1979, 1, 1, 0, 0, 0⟩).clockAnswers = ⟨1979, 1, 1, 0, 0, 0⟩ :: [] ∧ 1979 < 1980 := by decide

theorem witness_RejectionsChangeNothing :
    (standing .idle []).seq = .idle ∧ (standing (.bringUp none .wake) []).seq ≠ .idle ∧
    Instr.isHostCall (.hostStatus 0) = true ∧ (1 : Nat) ≠ 0 ∧ (2 : Word) ≠ 0 ∧
    shortBuffer.len < (2 : Word).toNat * 512 ∧ (2 : Word).toNat * 512 ≤ buffer.len ∧
    (readyCard false []).session = .ready ∧ (readyCard false []).addressing = false ∧
    0x7FFFFF < (0x800000 : Word).toNat := by decide

/-- A ready card's state meets the invariant. -/
theorem readyCard_inv (hc : Bool) (answers : List Answer) : (readyCard hc answers).Inv :=
  ⟨rfl, rfl, rfl, fun _ => rfl, fun h => by cases h⟩

/-- The invariant of a state with its sequencer elsewhere. -/
theorem inv_standing {s : State} (h : s.Inv) {q : Seq} (hq : { s with seq := q }.seqConsistent) :
    { s with seq := q }.Inv := ⟨h.tableBuilt, h.table, h.memory, h.addressing, hq⟩

/-- A call in progress: a single read about to poll for its token. -/
def reading : State :=
  { readyCard true [one 0xFE] with seq := .transfer (.ofCall .read buffer 5 1) (.data .startToken) }

theorem reading_inv : reading.Inv := inv_standing (readyCard_inv true [one 0xFE]) ⟨rfl, by decide⟩

theorem witness_EveryStepKeepsTheInvariant :
    reading.Inv ∧ ∃ t, step reading = .next t ∧ decide (t.trace.length = 1) = true :=
  ⟨reading_inv, next_of_holds (by decide +kernel)⟩

/-- The reset state with these requests. -/
def requesting (requests : List Request) : State := { State.reset with requests := requests }

theorem witness_StepRunsTheNextRequest :
    (requesting []).seq = .idle ∧ (requesting []).requests = [] ∧
    (requesting [.wire .token [0xFC]]).requests = .wire .token [0xFC] :: [] ∧
    decode .token [0xFC] = .ok .tokenStartMultiWrite ∧ decode .token [0x00] = .error .notAToken ∧
    (requesting [.start .busyWait]).requests = .start .busyWait :: [] ∧
    decodeTableWord 48 0x400000000095 = some .cmd0 ∧ decode .dataResponse [0x0B] = .error .notAccepted ∧
    (requesting [.wire .response1 [0xFF]]).requests = .wire .response1 (List.replicate 1 0xFF) :: [] ∧
    decode .response1 (List.replicate 1 0xFF) = .error .busIdle ∧ Instr.runsInOneStep .resetBlock = true ∧
    decode .response7 (List.replicate 1 0xFF ++ 0x01 :: [0x00, 0x01, 0xAA]) = .error .busIdle ∧ (0x01 : Byte) ≠ 0xFF ∧
    decode .response3 (List.replicate 5 0xFF) = .error .busIdle ∧
    decode .command (encodeFrame 1 0) = .error (.commandNotSent 1) ∧
    decode .command (encodeFrame 0 1) = .error (.badArgument 0) ∧
    decode .command [0x40, 0x00, 0x00, 0x00, 0x00, 0x97] = .error .badCrc ∧
    decode .command [0x00, 0x00, 0x00, 0x00, 0x00, 0x95] = .error .badStartBits ∧
    decode .command [0x40, 0x00, 0x00, 0x00, 0x00, 0x94] = .error .badStopBit ∧
    decode .token [] = .error (.badLength ([] : List Byte).length) := by decide +kernel

theorem witness_SequencerRunsTheWholeCall : (readyCard true []).seq = .idle := rfl

/-- A sector operation run alone: ReadSingle about to poll for its token. -/
def readingAlone : State :=
  { readyCard true [one 0xFE] with
    seq := .sector { dir := .read, multi := false, buf := buffer, sector := 5, count := 1 } (.data .startToken) }

theorem readingAlone_inv : readingAlone.Inv :=
  inv_standing (readyCard_inv true [one 0xFE]) ⟨by decide, by decide⟩

theorem witness_EachStepMakesOneTransportCall :
    (∃ t, step reading = .next t ∧ decide (t.trace.length = 1) = true) ∧
    reading.Inv ∧ reading.seq ≠ .idle ∧
    readingAlone.Inv ∧ readingAlone.seq ≠ .idle :=
  ⟨next_of_holds (by decide +kernel), reading_inv, by decide, readingAlone_inv, by decide⟩

theorem witness_EveryCallInProgressEnds :
    reading.Inv ∧ reading.seq ≠ .idle ∧
    readingAlone.Inv ∧ readingAlone.seq ≠ .idle :=
  ⟨reading_inv, by decide, readingAlone_inv, by decide⟩

theorem witness_TransportCallsAreBounded :
    ∃ t, exec (.hostRead 0 buffer 5 2) (readyCard true [.fail, okAnswer]) = .next t ∧
      decide (t.trace.length = 2) = true := next_of_holds (by decide +kernel)

theorem witness_WellFormedOperationsAnswer :
    Instr.wellFormed (.hostWrite 0 buffer 5 2) = true ∧ (readyCard true []).Inv ∧
    (readyCard true []).seq = .idle ∧ Instr.hostWrite 0 buffer 5 2 ≠ .hostTimestamp :=
  ⟨by decide, readyCard_inv _ _, rfl, by decide⟩

/-- A received block of two bytes and zeros. -/
def shortData : CardBlock := { wait := 0, payload := 0xA5 :: 0x5A :: List.replicate 510 0x00, crc := [0x12, 0x34] }

theorem witness_OnlyReadsStoreAndOnlyToTheBuffer :
    (∃ t, exec (.readSingle buffer 5) (readyCard true (txAnswers Params.reset (.after 0 0x00) ++ shortData.answers
      ++ [okAnswer])) = .next t ∧ decide (t.mem.read 0x1001 = 0x5A ∧ t.mem.read 0x1200 = 0x00) = true) ∧
    Instr.storesTo (.readSingle buffer 5) = some (buffer, 0, 512) ∧ ¬ inStored 0x1200 (buffer, 0, 512) ∧
    Instr.storesTo (.writeSingle buffer 5) = none :=
  ⟨next_of_holds (by decide +kernel), rfl, by unfold inStored; decide, rfl⟩

theorem witness_OnlyTheNamedOperationsWrite :
    ∃ t, exec (.hostInitialize 0) (withAnswers (initAnswers 0x80)) = .next t ∧
      decide (t.session = .ready ∧ t.isHc = some false) = true := next_of_holds (by decide +kernel)

end Sys2Proof.Tests
end

section
/-! The table-driven CRC-7 is the bit-wise CRC-7 of R101, and the frame made from it (O9). -/

namespace Sys2Proof.Proofs

open Sys2Proof.Machine

/-! ### The table against the bit-wise register

While the eight bits of a byte `b` go through the bit-wise register, R100's table value holds the register XORed with
the low seven bits of `b` still to come: each correction takes in one bit, and after eight of them none is left. -/

/-- The first correction of `fold`'s index takes in the first message bit. -/
theorem crcCorrect_foldIndex (crc : BitVec 7) (b : Byte) :
    crcCorrect (foldIndex (crc.setWidth 8) b) = (bitwiseCrcBit crc (b.getLsbD 7)).setWidth 8 ^^^ (b &&& 0x7F) := by
  have hout : (foldIndex (crc.setWidth 8) b).getLsbD 7 = (crc.getLsbD 6 != b.getLsbD 7) := by simp [foldIndex]
  unfold crcCorrect bitwiseCrcBit
  rw [hout]
  by_cases hsame : crc[6] = b[7]
  · ext i hi
    interval_cases i <;> simp [foldIndex, hsame]
  · ext i hi
    interval_cases i <;> simp [foldIndex, Config.crc7Poly, hsame]

/-- Each of R100's seven repetitions takes in the next message bit. -/
theorem crcShift_register (crc : BitVec 7) (b : Byte) :
    crcShift (crc.setWidth 8 ^^^ (b &&& 0x7F)) =
      (bitwiseCrcBit crc (b.getLsbD 6)).setWidth 8 ^^^ ((b <<< 1) &&& 0x7F) := by
  have hshift : (crc.setWidth 8 ^^^ (b &&& 0x7F)) <<< 1 = foldIndex (crc.setWidth 8) (b <<< 1) := by
    ext i hi
    interval_cases i <;> simp [foldIndex]
  rw [crcShift, hshift, crcCorrect_foldIndex, BitVec.getLsbD_shiftLeft]
  simp

/-- R101, R102: a lookup in the built table advances the bit-wise register by one byte. -/
theorem foldWith_builtTable_bitwise (crc : BitVec 7) (b : Byte) :
    foldWith builtTable (crc.setWidth 8) b = (bitwiseCrcByte crc b).setWidth 8 := by
  have hnone : (b <<< 1 <<< 1 <<< 1 <<< 1 <<< 1 <<< 1 <<< 1) &&& 0x7F = 0 := by
    ext i hi
    interval_cases i <;> simp
  rw [Laws.foldWith_builtTable, crcEntry, crcCorrect_foldIndex]
  simp only [Nat.repeat, crcShift_register, hnone]
  simp [bitwiseCrcByte]

/-- R103: the table-driven CRC of a byte sequence is its bit-wise CRC. -/
theorem computeWith_builtTable_bitwise (bytes : List Byte) :
    computeWith builtTable bytes = (bitwiseCrc bytes).setWidth 8 := by
  unfold computeWith bitwiseCrc
  rw [show (0 : Byte) = (0 : BitVec 7).setWidth 8 from rfl]
  generalize (0 : BitVec 7) = crc
  induction bytes generalizing crc with
  | nil => rfl
  | cons b bs ih => rw [List.foldl_cons, List.foldl_cons, foldWith_builtTable_bitwise, ih]

/-! ### The frame -/

/-- R73: the last byte of a frame is the seven CRC bits followed by the stop bit. -/
theorem frameByte5_setWidth (crc : BitVec 7) : frameByte5 (crc.setWidth 8) = crc ++ 1#1 := by
  apply BitVec.eq_of_getLsbD_eq
  intro i hi
  simp only [frameByte5, BitVec.getLsbD_or, BitVec.getLsbD_shiftLeft, BitVec.getLsbD_setWidth, BitVec.getLsbD_append]
  interval_cases i <;> simp

/-- R105: the frame over the built table ends with the bit-wise CRC of its first five bytes. -/
theorem frameWith_builtTable (index : Nat) (arg : Word) :
    frameWith builtTable index arg = frameHead index arg ++ [bitwiseCrc (frameHead index arg) ++ 1#1] := by
  rw [frameWith, computeWith_builtTable_bitwise, frameByte5_setWidth]

/-- Settles O9: the framer's answer is the frame over the built table, whose table-driven CRC is the bit-wise one. -/
theorem assembleMakesTheFrame : Obligations.AssembleMakesTheFrame := by
  intro s index arg hframing hindex
  have hrun : exec (.assemble index arg) s = .next (s.returning (.bytes (frameWith builtTable index arg))) :=
    Laws.runAlone_ok (Laws.assemble_eq hframing hindex arg)
  rw [hrun, frameWith_builtTable]
  rfl

end Sys2Proof.Proofs
end

section
/-! The CRC of a concatenation is a fold continued (R104, O8). -/

namespace Sys2Proof.Proofs

open Sys2Proof.Machine

/-- R103: with the table built, `compute` answers the table-driven CRC and changes nothing but the result. -/
theorem exec_compute {s : State} (hframing : s.framing) (bytes : List Byte) :
    exec (.compute bytes) s = .next (s.returning (.crc (computeWith s.table bytes))) := by
  rw [hframing.2]
  exact Laws.runAlone_ok (Laws.compute_eq hframing bytes)

/-- R104 over any table: the bytes of `b` are folded on from the CRC of `a`. -/
theorem computeWith_append (t : CrcTable) (a b : List Byte) :
    computeWith t (a ++ b) = b.foldl (foldWith t) (computeWith t a) := List.foldl_append

/-- A returned CRC can be read off the state it is returned in. -/
theorem returning_crc_inj {s : State} {c d : Byte} (h : s.returning (.crc c) = s.returning (.crc d)) : c = d :=
  Result.crc.inj (congrArg State.result h)

/-- Settles O8: the CRC that `compute a` returned is where the fold of `a ++ b` stands after `a`. -/
theorem computeFoldsOn : Obligations.ComputeFoldsOn := by
  intro s a b c hframing hcompute
  have hcrc : computeWith s.table a = c :=
    returning_crc_inj (Host.Outcome.next.inj ((exec_compute hframing a).symm.trans hcompute))
  rw [exec_compute hframing, computeWith_append, hcrc]

end Sys2Proof.Proofs
end

section
/-! The host calls while no other is in progress (R210, O48). -/

namespace Sys2Proof.Proofs

open Sys2Proof.Machine

/-- R210: with no call in progress a host call is what its body answers. -/
theorem whenIdle_of_idle {s : State} (hidle : s.seq = .idle) (call : Host.Outcome State Fault Refusal) :
    whenIdle s call = call := if_pos hidle

/-- R216: behind R210's guard `sync` only returns the answer for its drive. -/
theorem exec_hostSync (drive : Nat) (s : State) :
    exec (.hostSync drive) s =
      whenIdle s (.next (s.returning (if drive = 0 then .ok else .rejected .badDrive))) := rfl

/-- Settles O48: with no call in progress the guard passes, and the body of `sync` does not read the session. -/
theorem syncIsNoOperation : Obligations.SyncIsNoOperation := by
  intro s drive hidle
  rw [exec_hostSync, whenIdle_of_idle hidle]

end Sys2Proof.Proofs
end

section
/-! What the decoder answers for the encoding of a unit, and the encoding of what it answers (R70 to R87; O1, O2, O3). -/

namespace Sys2Proof.Proofs

open Sys2Proof.Machine

/-! ### From a unit to its bytes and back -/

/-- R81: the low nibble of an accepted data response is 0101 and its high nibble is the open one. -/
theorem decodeDataResponse_accepted (upper : BitVec 4) :
    decodeDataResponse (upper ++ 0b0101#4) = .ok (.dataResponseAccepted upper) := by
  revert upper; decide

theorem decode_response1 {b : Byte} (hb : b ≠ 0xFF) : decode .response1 [b] = .ok (.r1 b) := if_neg hb

theorem decode_response3 {b : Byte} (hb : b ≠ 0xFF) (w : Word) :
    decode .response3 (b :: wordBytes w) = .ok (.r3 b w) :=
  (if_neg hb).trans (congrArg (fun v => Except.ok (Instr.r3 b v)) (Laws.be32_wordBytes w))

theorem decode_response7 {b : Byte} (hb : b ≠ 0xFF) (w : Word) :
    decode .response7 (b :: wordBytes w) = .ok (.r7 b w) :=
  (if_neg hb).trans (congrArg (fun v => Except.ok (Instr.r7 b v)) (Laws.be32_wordBytes w))

/-- Settles O1: a frame decodes by its index and argument, the other units by the rule of their slot. -/
theorem decodeOfEncodeIsTheUnit : Obligations.DecodeOfEncodeIsTheUnit := by
  intro i hwf slot bytes henc
  cases i with
  | r1 b => cases henc; exact decode_response1 (by simpa [Instr.wellFormed] using hwf)
  | r3 b ocr => cases henc; exact decode_response3 (by simpa [Instr.wellFormed] using hwf) ocr
  | r7 b echo => cases henc; exact decode_response7 (by simpa [Instr.wellFormed] using hwf) echo
  | dataResponseAccepted upper => cases henc; exact decodeDataResponse_accepted upper
  | tokenStartBlock | tokenStartMultiWrite | tokenStopTran => cases henc; rfl
  | cmd0 | cmd8 | cmd12 | cmd17 arg | cmd18 arg | cmd24 arg | cmd25 arg | cmd55 | cmd58 | acmd23 arg | acmd41 =>
    cases henc; exact Laws.decode_encodeFrame (by decide) _
  | _ => exact absurd henc (by simp [encode])

/-! ### From bytes to the unit and back -/

/-- A well-formed unit whose encoding is these bytes in this slot. -/
def EncodedAs (i : Instr) (slot : Slot) (bytes : List Byte) : Prop :=
  i.wellFormed = true ∧ encode i = some (slot, bytes)

/-- The commands whose argument, and so whose CRC, is open (R83). -/
def OpenArgument (i : Instr) : Prop :=
  ∃ a, i = .cmd17 a ∨ i = .cmd18 a ∨ i = .cmd24 a ∨ i = .cmd25 a ∨ i = .acmd23 a

/-- R83: a command with a constant argument is answered for that argument only. -/
theorem decodeCommand_fixed {index : BitVec 6} {arg want : Word} {i j : Instr}
    (h : (if arg = want then Except.ok i else .error (DecodeError.badArgument index)) = Except.ok j) :
    arg = want ∧ i = j := by
  split at h
  · exact ⟨‹_›, Except.ok.inj h⟩
  · cases h

/-- R83: the command of an index and an argument is encoded by them. -/
theorem encodedAs_of_decodeCommand {index : BitVec 6} {arg : Word} {i : Instr} (h : decodeCommand index arg = .ok i) :
    EncodedAs i .command (encodeFrame index.toNat arg) := by
  unfold decodeCommand at h
  split at h <;> rename_i hindex
  case h_12 => cases h
  case h_4 | h_5 | h_6 | h_7 | h_8 => cases h; rw [hindex]; exact ⟨rfl, rfl⟩
  all_goals
    obtain ⟨rfl, rfl⟩ := decodeCommand_fixed h
    rw [hindex]
    exact ⟨rfl, rfl⟩

/-- R83: the indices whose CRC varies are those of the commands with an open argument. -/
theorem openArgument_of_crcVaries {index : BitVec 6} {arg : Word} {i : Instr} (h : decodeCommand index arg = .ok i)
    (hv : crcVaries index = true) : OpenArgument i := by
  unfold crcVaries at hv
  unfold decodeCommand at h
  refine ⟨arg, ?_⟩
  split at hv <;> rename_i hindex
  case h_6 => cases hv
  all_goals
    rw [hindex] at h
    cases h
    simp

/-- R70, R71: byte 0 is its start bits and its index. -/
theorem frameByte0_of_start {b0 : Byte} (h : b0.extractLsb' 6 2 = 0b01#2) :
    frameByte0 (b0.extractLsb' 0 6).toNat = b0 := by
  revert b0; decide +kernel

/-- R71, R72: bytes 0 to 4 of a frame are its index and argument. -/
theorem frameHead_of_start {b0 : Byte} (h : b0.extractLsb' 6 2 = 0b01#2) (b1 b2 b3 b4 : Byte) :
    frameHead (b0.extractLsb' 0 6).toNat (be32 b1 b2 b3 b4) = [b0, b1, b2, b3, b4] := by
  rw [frameHead, frameByte0_of_start h, Laws.wordBytes_be32]

/-- What passes a frame's checks is the frame of the command it decodes to. -/
theorem encodedAs_of_decodeFrame {b0 b1 b2 b3 b4 b5 : Byte} {i : Instr} (h : decodeFrame b0 b1 b2 b3 b4 b5 = .ok i) :
    EncodedAs i .command [b0, b1, b2, b3, b4, b5] := by
  unfold decodeFrame at h
  split at h <;> [cases h; rename_i hstart]
  split at h <;> [cases h; skip]
  split at h <;> [cases h; rename_i hcrc]
  have hhead := frameHead_of_start (by simpa using hstart) b1 b2 b3 b4
  have hlast : b5 = frameByte5 (computeWith builtTable [b0, b1, b2, b3, b4]) := by simpa using hcrc
  have henc := encodedAs_of_decodeCommand h
  rw [encodeFrame, hhead, ← hlast] at henc
  exact henc

theorem encodedAs_of_decodeToken {b : Byte} {i : Instr} (h : decodeToken b = .ok i) : EncodedAs i .token [b] := by
  unfold decodeToken at h
  split at h
  · cases h; subst b; exact ⟨rfl, rfl⟩
  split at h
  · cases h; subst b; exact ⟨rfl, rfl⟩
  split at h
  · cases h; subst b; exact ⟨rfl, rfl⟩
  · cases h

/-- R81: an accepted data response is its upper nibble and 0101. -/
theorem append_accepted_of_low {b : Byte} (h : b.extractLsb' 0 4 = 0b0101#4) : b.extractLsb' 4 4 ++ 0b0101#4 = b := by
  revert b; decide +kernel

theorem encodedAs_of_decodeDataResponse {b : Byte} {i : Instr} (h : decodeDataResponse b = .ok i) :
    EncodedAs i .dataResponse [b] := by
  unfold decodeDataResponse at h
  split at h <;> [rename_i hlow; cases h]
  cases h
  exact ⟨rfl, by rw [encode, append_accepted_of_low hlow]⟩

/-- R79: a response is any byte but the idle one. -/
theorem not_idle_of_decode {b : Byte} {i j : Instr}
    (h : (if b = 0xFF then Except.error DecodeError.busIdle else .ok i) = Except.ok j) : b ≠ 0xFF ∧ i = j := by
  split at h
  · cases h
  · exact ⟨‹_›, Except.ok.inj h⟩

theorem encodedAs_of_decodeR1 {b : Byte} {i : Instr} (h : decodeR1 b = .ok i) : EncodedAs i .response1 [b] := by
  obtain ⟨hb, rfl⟩ := not_idle_of_decode h
  exact ⟨by simpa [Instr.wellFormed] using hb, rfl⟩

theorem encodedAs_of_decodeR3 {b b1 b2 b3 b4 : Byte} {i : Instr} (h : decodeR3 b (be32 b1 b2 b3 b4) = .ok i) :
    EncodedAs i .response3 [b, b1, b2, b3, b4] := by
  obtain ⟨hb, rfl⟩ := not_idle_of_decode h
  exact ⟨by simpa [Instr.wellFormed] using hb, by rw [encode, Laws.wordBytes_be32]⟩

theorem encodedAs_of_decodeR7 {b b1 b2 b3 b4 : Byte} {i : Instr} (h : decodeR7 b (be32 b1 b2 b3 b4) = .ok i) :
    EncodedAs i .response7 [b, b1, b2, b3, b4] := by
  obtain ⟨hb, rfl⟩ := not_idle_of_decode h
  exact ⟨by simpa [Instr.wellFormed] using hb, by rw [encode, Laws.wordBytes_be32]⟩

/-- In a slot that is given, the bytes are the encoding of the unit answered, for that slot. -/
theorem encodedAs_of_decode {slot : Slot} {bytes : List Byte} {i : Instr} (hslot : slot ≠ .unclassified)
    (h : decode slot bytes = .ok i) : EncodedAs i slot bytes := by
  unfold decode at h
  split at h
  · exact encodedAs_of_decodeFrame h
  · exact encodedAs_of_decodeToken h
  · exact encodedAs_of_decodeDataResponse h
  · exact encodedAs_of_decodeR1 h
  · exact encodedAs_of_decodeR3 h
  · exact encodedAs_of_decodeR7 h
  · exact absurd rfl hslot
  · exact absurd rfl hslot
  · exact absurd rfl hslot
  · cases h

/-- A lone byte given with no slot is a unit of the slot that takes it. -/
theorem encodedAs_of_decodeByte {b : Byte} {i : Instr} (h : decodeByte b = .ok i) : ∃ slot, EncodedAs i slot [b] := by
  unfold decodeByte at h
  split at h
  · rename_i htoken; cases h; exact ⟨_, encodedAs_of_decodeToken htoken⟩
  · split at h
    · rename_i hdata; cases h; exact ⟨_, encodedAs_of_decodeDataResponse hdata⟩
    · exact ⟨_, encodedAs_of_decodeR1 h⟩

theorem encodedAs_of_decodeFive {b b1 b2 b3 b4 : Byte} {i : Instr} (h : decodeFive b (be32 b1 b2 b3 b4) = .ok i) :
    ∃ slot, EncodedAs i slot [b, b1, b2, b3, b4] := by
  unfold decodeFive at h
  split at h
  · exact ⟨_, encodedAs_of_decodeR7 h⟩
  · exact ⟨_, encodedAs_of_decodeR3 h⟩

/-- R105: a frame given with no slot is that of the unit answered, but for the CRC of an open argument, which the framer
computes. -/
theorem encodedAs_of_decodeTableFrame {b0 b1 b2 b3 b4 b5 : Byte} {i : Instr}
    (h : decodeTableFrame b0 b1 b2 b3 b4 b5 = .ok i) :
    EncodedAs i .command [b0, b1, b2, b3, b4, b5] ∨
      (OpenArgument i ∧ ∃ c, EncodedAs i .command [b0, b1, b2, b3, b4, c]) := by
  unfold decodeTableFrame at h
  split at h <;> [cases h; rename_i hstart]
  split at h <;> [cases h; skip]
  split at h
  · rename_i hv
    have hhead := frameHead_of_start (by simpa using hstart) b1 b2 b3 b4
    have henc := encodedAs_of_decodeCommand h
    rw [encodeFrame, hhead] at henc
    exact .inr ⟨openArgument_of_crcVaries h hv, _, henc⟩
  · exact .inl (encodedAs_of_decodeFrame h)

/-- With no slot given, the bytes are the encoding of the unit answered in some slot, but for the CRC of an open
argument. -/
theorem encodedAs_of_decode_unclassified {bytes : List Byte} {i : Instr} (h : decode .unclassified bytes = .ok i) :
    (∃ slot, EncodedAs i slot bytes) ∨
      (OpenArgument i ∧ ∃ head c d, bytes = head ++ [c] ∧ head.length = 5 ∧ EncodedAs i .command (head ++ [d])) := by
  unfold decode at h
  split at h <;> rename_i hslot <;> try cases hslot
  · exact .inl (encodedAs_of_decodeByte h)
  · exact .inl (encodedAs_of_decodeFive h)
  · rename_i b0 b1 b2 b3 b4 b5
    rcases encodedAs_of_decodeTableFrame h with henc | ⟨hopen, c, henc⟩
    · exact .inl ⟨_, henc⟩
    · exact .inr ⟨hopen, [b0, b1, b2, b3, b4], b5, c, rfl, rfl, henc⟩
  · cases h

/-- Settles O2: each part of the decoder accepts only what encodes the unit it answers. -/
theorem encodeOfDecodeIsTheBytes : Obligations.EncodeOfDecodeIsTheBytes := by
  intro slot bytes i h
  by_cases hslot : slot = .unclassified
  · subst hslot
    rcases encodedAs_of_decode_unclassified h with ⟨slot', hwf, henc⟩ | ⟨⟨a, hopen⟩, head, c, d, rfl, hlen, hwf, henc⟩
    · exact ⟨hwf, slot', bytes, henc, rfl, rfl, fun hne => absurd rfl hne, fun _ => rfl⟩
    · refine ⟨hwf, .command, head ++ [d], henc, by simp, ?_, fun hne => absurd rfl hne, fun hclosed => ?_⟩
      · rw [List.take_append_of_le_length hlen.ge, List.take_append_of_le_length hlen.ge]
      · obtain ⟨h17, h18, h24, h25, h23⟩ := hclosed a
        rcases hopen with h | h | h | h | h
        exacts [absurd h h17, absurd h h18, absurd h h24, absurd h h25, absurd h h23]
  · obtain ⟨hwf, henc⟩ := encodedAs_of_decode hslot h
    exact ⟨hwf, slot, bytes, henc, rfl, rfl, fun _ => ⟨rfl, rfl⟩, fun _ => rfl⟩

/-- Settles O3: each written-out word is evaluated. -/
theorem writtenOutWordsDecode : Obligations.WrittenOutWordsDecode := by
  refine ⟨?_, ?_, ?_, ?_, ?_, ?_, ?_, ?_, ?_⟩
  case refine_1 | refine_2 | refine_3 | refine_9 => decide +kernel
  all_goals decide

end Sys2Proof.Proofs
end

section
/-! The bit-wise CRC-7 is linear and sees every inverted bit (R101), and what the engine and the framer answer (R100 to
R106, R243; O4, O5, O6, O7, O10, O11). -/

namespace Sys2Proof.Proofs

open Sys2Proof.Machine

/-! ### The register is linear

The XOR of two registers goes through the register as the XOR of their messages, so what distinguishes two registers is
told by the register's kernel. -/

/-- R101: the register is shifted, and the polynomial comes in when the bit shifted out differs from the message bit. -/
theorem bitwiseCrcBit_eq (c : BitVec 7) (x : Bool) :
    bitwiseCrcBit c x = c <<< 1 ^^^ (if c.getLsbD 6 ^^ x then 0x09#7 else 0#7) := by
  unfold bitwiseCrcBit
  cases c.getLsbD 6 <;> cases x <;> simp

theorem bitwiseCrcBit_xor (c d : BitVec 7) (x y : Bool) :
    bitwiseCrcBit (c ^^^ d) (x ^^ y) = bitwiseCrcBit c x ^^^ bitwiseCrcBit d y := by
  have hout : ((c ^^^ d).getLsbD 6 ^^ (x ^^ y)) = ((c.getLsbD 6 ^^ x) ^^ (d.getLsbD 6 ^^ y)) := by
    rw [BitVec.getLsbD_xor, Bool.xor_assoc, Bool.xor_assoc, Bool.xor_left_comm (d.getLsbD 6)]
  have hpoly : ∀ p q : Bool, (if p ^^ q then 0x09#7 else 0#7) = (if p then 0x09 else 0) ^^^ (if q then 0x09 else 0) := by
    decide
  rw [bitwiseCrcBit_eq, bitwiseCrcBit_eq, bitwiseCrcBit_eq, hout, hpoly, BitVec.shiftLeft_xor_distrib]
  ac_rfl

theorem bitwiseCrcByte_xor (c d : BitVec 7) (x y : Byte) :
    bitwiseCrcByte (c ^^^ d) (x ^^^ y) = bitwiseCrcByte c x ^^^ bitwiseCrcByte d y := by
  simp only [bitwiseCrcByte, List.foldl_cons, List.foldl_nil, BitVec.getLsbD_xor, bitwiseCrcBit_xor]

/-- A byte keeps different registers different. -/
theorem bitwiseCrcByte_injective {c d : BitVec 7} {b : Byte} (h : bitwiseCrcByte c b = bitwiseCrcByte d b) : c = d := by
  have hkernel : ∀ e : BitVec 7, bitwiseCrcByte e 0 = 0 → e = 0 := by decide +kernel
  have hxor : bitwiseCrcByte (c ^^^ d) 0 = 0 := by
    have := bitwiseCrcByte_xor c d b b
    rwa [h, BitVec.xor_self, BitVec.xor_self] at this
  exact BitVec.xor_eq_zero_iff.1 (hkernel _ hxor)

/-- So does a byte sequence. -/
theorem foldl_bitwiseCrcByte_injective {c d : BitVec 7} {bytes : List Byte}
    (h : bytes.foldl bitwiseCrcByte c = bytes.foldl bitwiseCrcByte d) : c = d := by
  induction bytes generalizing c d with
  | nil => exact h
  | cons b bs ih => exact bitwiseCrcByte_injective (ih h)

/-- One inverted bit of a byte changes the register after it. -/
theorem bitwiseCrcByte_invert (c : BitVec 7) (b : Byte) {k : Nat} (hk : k < 8) :
    bitwiseCrcByte c (b ^^^ (1#8 <<< k)) ≠ bitwiseCrcByte c b := by
  have hbit : ∀ k < 8, bitwiseCrcByte 0 (1#8 <<< k) ≠ 0 := by decide
  intro h
  have hxor : bitwiseCrcByte c b ^^^ bitwiseCrcByte 0 (1#8 <<< k) = bitwiseCrcByte c b ^^^ 0#7 := by
    rw [← bitwiseCrcByte_xor, BitVec.xor_zero]
    exact (congrArg (bitwiseCrcByte · _) BitVec.xor_zero).trans h
  exact hbit k hk ((BitVec.xor_right_inj _).1 hxor)

/-- R73: one inverted bit of a message changes its CRC. -/
theorem bitwiseCrc_invert {bytes : List Byte} {j : Nat} (hj : j < bytes.length) {k : Nat} (hk : k < 8) :
    bitwiseCrc (bytes.set j (bytes[j] ^^^ (1#8 <<< k))) ≠ bitwiseCrc bytes := by
  unfold bitwiseCrc
  generalize (0 : BitVec 7) = c
  induction bytes generalizing c j with
  | nil => exact absurd hj (Nat.not_lt_zero j)
  | cons b bs ih =>
    cases j with
    | zero => exact fun h => bitwiseCrcByte_invert c b hk (foldl_bitwiseCrcByte_injective h)
    | succ j => exact ih (Nat.lt_of_succ_lt_succ hj) (bitwiseCrcByte c b)

/-! ### A frame with one bit inverted -/

/-- Five bytes, then their CRC and the stop bit (R70 to R73). -/
def IsFrame (bytes : List Byte) : Prop := ∃ head, head.length = 5 ∧ bytes = head ++ [bitwiseCrc head ++ 1#1]

theorem isFrame_encodeFrame (index : Nat) (arg : Word) : IsFrame (encodeFrame index arg) :=
  ⟨frameHead index arg, rfl, frameWith_builtTable index arg⟩

/-- Every encoding of a unit of the command slot is a frame. -/
theorem isFrame_of_encode {i : Instr} {bytes : List Byte} (h : encode i = some (.command, bytes)) : IsFrame bytes := by
  cases i with
  | cmd0 | cmd8 | cmd12 | cmd17 arg | cmd18 arg | cmd24 arg | cmd25 arg | cmd55 | cmd58 | acmd23 arg | acmd41 =>
    cases h; exact isFrame_encodeFrame _ _
  | _ => exact absurd h (by simp [encode])

theorem xor_bit_ne (b : Byte) {k : Nat} (hk : k < 8) : b ^^^ (1#8 <<< k) ≠ b := by
  have hbit : ∀ k < 8, 1#8 <<< k ≠ 0#8 := by decide
  exact fun h => hbit k hk ((BitVec.xor_right_inj b).1 (h.trans BitVec.xor_zero.symm))

/-- The CRC of a frame can be read off its last byte. -/
theorem crc_of_append_stop {c d : BitVec 7} (h : c ++ 1#1 = d ++ 1#1) : c = d := by
  have hhigh : ∀ e : BitVec 7, (e ++ 1#1).extractLsb' 1 7 = e := by decide
  exact (hhigh c).symm.trans ((congrArg (BitVec.extractLsb' 1 7) h).trans (hhigh d))

/-- Two frames never differ in exactly one bit. -/
theorem not_isFrame_invert {bytes : List Byte} (h : IsFrame bytes) {j : Nat} (hj : j < bytes.length) {k : Nat}
    (hk : k < 8) : ¬ IsFrame (bytes.set j (bytes[j] ^^^ (1#8 <<< k))) := by
  obtain ⟨head, -, rfl⟩ := h
  rintro ⟨head', -, heq⟩
  rcases Nat.lt_or_ge j head.length with hlt | hge
  · rw [List.set_append_left _ _ hlt, List.getElem_append_left hlt] at heq
    obtain ⟨hhead, hlast⟩ := List.append_inj' heq rfl
    exact bitwiseCrc_invert hlt hk (by rw [hhead, ← crc_of_append_stop (List.cons.inj hlast).1])
  · obtain rfl : j = head.length := by simp at hj; omega
    rw [List.set_append_right _ _ le_rfl] at heq
    simp only [List.getElem_append_right le_rfl, Nat.sub_self, List.getElem_cons_zero, List.set_cons_zero] at heq
    obtain ⟨rfl, hlast⟩ := List.append_inj' heq rfl
    exact xor_bit_ne _ hk (List.cons.inj hlast).1

/-- Settles O4: whatever the command slot takes is a frame, and one inverted bit leaves none. -/
theorem oneInvertedBitIsRefused : Obligations.OneInvertedBitIsRefused := by
  intro i bytes henc j hj k hk
  cases hdec : decode .command (bytes.set j (bytes[j] ^^^ (1#8 <<< k))) with
  | error e => exact ⟨e, rfl⟩
  | ok i' =>
    have henc' := (encodedAs_of_decode (by decide) hdec).2
    exact absurd (isFrame_of_encode henc') (not_isFrame_invert (isFrame_of_encode henc) hj hk)

/-! ### The engine -/

/-- Settles O7: the engine's CRC over the built table is the bit-wise one. -/
theorem computeIsBitwiseCrc : Obligations.ComputeIsBitwiseCrc := by
  intro s bytes hframing
  rw [exec_compute hframing, hframing.2, computeWith_builtTable_bitwise]

/-- R102: with the table built, a fold answers its lookup and changes nothing but the result. -/
theorem exec_fold {s : State} (hframing : s.framing) (crc byte : Byte) :
    exec (.fold crc byte) s = .next (s.returning (.crc (foldWith builtTable crc byte))) :=
  Laws.runAlone_ok (by simp [fold, hframing.1, hframing.2])

/-- A CRC below 128 is its low seven bits. -/
theorem setWidth_of_crc_lt {crc : Byte} (h : crc.toNat < 128) : (crc.setWidth 7).setWidth 8 = crc := by
  apply BitVec.eq_of_toNat_eq
  simp
  omega

/-- Settles O6: the lookup in the built table is one byte of the bit-wise register. -/
theorem foldAdvancesOneByte : Obligations.FoldAdvancesOneByte := by
  intro s crc byte hframing hcrc
  have hlookup := foldWith_builtTable_bitwise (crc.setWidth 7) byte
  rw [setWidth_of_crc_lt hcrc] at hlookup
  rw [exec_fold hframing, hlookup]

/-- R100, R101: a cell of the built table is the bit-wise CRC of its index. -/
theorem builtTable_bitwise (i : Fin 256) :
    builtTable[i] = (bitwiseCrc [BitVec.ofNat 8 i.val]).setWidth 8 := by
  have hindex : foldIndex (BitVec.setWidth 8 (0 : BitVec 7)) (BitVec.ofNat 8 i.val) = BitVec.ofNat 8 i.val := by simp [foldIndex]
  have hlookup := foldWith_builtTable_bitwise 0 (BitVec.ofNat 8 i.val)
  rw [Laws.foldWith_builtTable, hindex] at hlookup
  exact (Vector.getElem_ofFn i.isLt).trans hlookup

theorem setWidth_crc_lt (crc : BitVec 7) : (crc.setWidth 8).toNat < 128 := by
  simp; omega

/-- Settles O5: the table built is R100's, whose cells are bit-wise CRCs. -/
theorem buildTableHoldsBitwiseCrcs : Obligations.BuildTableHoldsBitwiseCrcs := by
  intro s
  refine ⟨s.buildTable.returning .done, rfl, rfl, fun i => ?_, by simp only [State.buildTable, State.returning]⟩
  have hcell : (s.buildTable.returning .done).table[i] = (bitwiseCrc [BitVec.ofNat 8 i.val]).setWidth 8 :=
    builtTable_bitwise i
  exact ⟨hcell, hcell ▸ setWidth_crc_lt _⟩

/-! ### The refusal and the fault of the framer -/

theorem runAlone_refuse {α : Type} {op : Op α} {ret : α → Result} {s t : State} {r : Refusal}
    (h : op s = .error (.refuse r) t) : runAlone op ret s = .refused r := by simp [runAlone, h]

theorem runAlone_fault {α : Type} {op : Op α} {ret : α → Result} {s t : State} {f : Fault}
    (h : op s = .error (.fault f) t) : runAlone op ret s = .fault f := by simp [runAlone, h]

theorem assemble_refused {index : Nat} (h : 63 < index) (arg : Word) (s : State) :
    assemble index arg s = .error (.refuse .commandIndexOutOfRange) s := by
  rw [assemble, if_pos h]; rfl

/-- Settles O10: `assemble` refuses, and `SendCmd` assembles first. -/
theorem indexAbove63IsRefused : Obligations.IndexAbove63IsRefused := by
  intro s index arg shape h
  have hasm := assemble_refused h arg s
  exact ⟨runAlone_refuse hasm, runAlone_refuse (Laws.op_bind_error hasm)⟩

theorem tx_index_le (tx : Tx) : tx.index ≤ 63 := by
  rcases tx with x | x <;> cases x <;> decide

section unbuilt
variable {s : State} (h : s.tableBuilt = false)
include h

theorem fold_unbuilt (crc byte : Byte) : fold crc byte s = .error (.fault .tableUnbuilt) s := by
  simp [fold, h]

theorem compute_unbuilt (byte : Byte) (bytes : List Byte) :
    compute (byte :: bytes) s = .error (.fault .tableUnbuilt) s := Laws.op_bind_error (fold_unbuilt h 0 byte)

theorem assemble_unbuilt {index : Nat} (hi : index ≤ 63) (arg : Word) :
    assemble index arg s = .error (.fault .tableUnbuilt) s := by
  rw [assemble, if_neg (by omega)]
  exact Laws.op_bind_error (compute_unbuilt h _ _)

theorem sendCmd_unbuilt {index : Nat} (hi : index ≤ 63) (arg : Word) (shape : Shape) :
    sendCmd index arg shape s = .error (.fault .tableUnbuilt) s := Laws.op_bind_error (assemble_unbuilt h hi arg)

theorem transact_unbuilt (tx : Tx) (arg : Word) : transact tx arg s = .error (.fault .tableUnbuilt) s :=
  Laws.op_bind_error (sendCmd_unbuilt h (tx_index_le tx) arg tx.shape)

/-- A chain that begins with a transaction faults. -/
theorem runAlone_transact_unbuilt {α : Type} (tx : Tx) (arg : Word) (f : Reply → Op α) (ret : α → Result) :
    runAlone (transact tx arg >>= f) ret s = .fault .tableUnbuilt :=
  runAlone_fault (Laws.op_bind_error (transact_unbuilt h tx arg))

theorem exec_cmd55_unbuilt : exec .cmd55 s = .fault .tableUnbuilt := by
  simp only [exec, execCmd55]
  split <;> exact runAlone_transact_unbuilt h ..

theorem exec_cmd58_unbuilt : exec .cmd58 s = .fault .tableUnbuilt := by
  simp only [exec, execCmd58]
  split <;> exact runAlone_transact_unbuilt h ..

end unbuilt

/-- Settles O11: each of these folds before anything else. -/
theorem unbuiltTableFaults : Obligations.UnbuiltTableFaults := by
  intro s crc byte bytes index arg shape h hi
  refine ⟨?_, runAlone_fault (fold_unbuilt h crc byte), runAlone_fault (compute_unbuilt h byte bytes),
    runAlone_fault (assemble_unbuilt h hi arg), runAlone_fault (sendCmd_unbuilt h hi arg shape)⟩
  rintro i (rfl | rfl | rfl | rfl | rfl | rfl | rfl | rfl | rfl | rfl | rfl)
  · exact runAlone_transact_unbuilt h ..
  · exact runAlone_transact_unbuilt h ..
  · exact runAlone_transact_unbuilt h ..
  · exact runAlone_fault (transact_unbuilt h ..)
  · exact runAlone_fault (transact_unbuilt h ..)
  · exact runAlone_fault (transact_unbuilt h ..)
  · exact runAlone_fault (transact_unbuilt h ..)
  · exact exec_cmd55_unbuilt h
  · exact exec_cmd58_unbuilt h
  · exact runAlone_transact_unbuilt h ..
  · exact runAlone_transact_unbuilt h ..

end Sys2Proof.Proofs
end

section
/-! What one step of an operation in progress can do, said once for each part of the sequencer (R8, R21). -/

namespace Sys2Proof.Proofs

open Sys2Proof.Machine Sys2Proof.Laws

/-! ### What a step touches before it moves on -/

/-- At most one transport call was made; nothing else changed but what a call touches, and the poll counter. -/
def Touched (s u : State) : Prop := ∃ es rest cs, es.length ≤ 1 ∧ Talked s u es rest cs

theorem Touched.refl (s : State) : Touched s s := ⟨[], s.env, s.cs, Nat.zero_le 1, .nothing s⟩

theorem touched_exchanged (pol : Policy) (ok : Bool) (e : Event) (rest : List Answer) (s : State) :
    Touched s (State.exchanged pol ok e rest s) := ⟨[e], rest, _, le_rfl, talked_exchanged pol ok e rest s⟩

theorem Touched.polls {s u : State} (h : Touched s u) (n : Nat) : Touched s { u with polls := n } :=
  let ⟨es, rest, cs, hlen, htalk⟩ := h; ⟨es, rest, cs, hlen, talked_polls htalk n⟩

theorem Touched.startPoll {s u : State} (h : Touched s u) : Touched s u.startPoll := h.polls 0

theorem Touched.countPoll {s u : State} (h : Touched s u) : Touched s u.countPoll := h.polls _

theorem Touched.retirePolls {s u : State} (h : Touched s u) : Touched s u.retirePolls :=
  let ⟨es, rest, cs, hlen, htalk⟩ := h; ⟨es, rest, cs, hlen, talked_retired htalk⟩

theorem Touched.same {s u : State} (h : Touched s u) : SameButTransfer s u := let ⟨_, _, _, _, htalk⟩ := h; htalk.same

theorem Touched.grew {s u : State} (h : Touched s u) : TraceGrew 1 s u :=
  let ⟨es, _, _, hlen, htalk⟩ := h; ⟨es, htalk.trace, hlen⟩

/-! ### A transport call as a step -/

/-- What holds of both ends of a write as a step holds of the step. -/
theorem stepWrite_induct {P : State → Prop} {cleanup : AbortCause → Seq} {bytes : List Byte} {pol : Policy}
    {k : State → State} {s : State} (hgo : ∀ u, Touched s u → P (k u))
    (hstop : ∀ u, Touched s u → P (u.raised cleanup .transport)) : P (stepWrite cleanup bytes pol k s) := by
  rcases stepWrite_cases (cleanup := cleanup) (s := s) bytes pol k with h | h <;> rw [h]
  · exact hgo _ (touched_exchanged ..)
  · exact hstop _ (touched_exchanged ..)

/-- What holds of both ends of a read as a step holds of the step. -/
theorem stepRead_induct {P : State → Prop} {cleanup : AbortCause → Seq} {n : Nat} {pol : Policy}
    {k : List Byte → State → State} {s : State} (hgo : ∀ bs u, Touched s u → P (k bs u))
    (hstop : ∀ u, Touched s u → P (u.raised cleanup .transport)) : P (stepRead cleanup n pol k s) := by
  rcases stepRead_cases (cleanup := cleanup) (s := s) n pol k with ⟨bs, -, h⟩ | h <;> rw [h]
  · exact hgo _ _ (touched_exchanged ..)
  · exact hstop _ (touched_exchanged ..)

/-! ### A command transaction -/

/-- Where a step of a transaction leads: on inside it, to the abort path, past its check, or past its end. -/
inductive TxMove (x : Exchange) (here : TxStep → Seq) (cleanup : AbortCause → Seq)
    (after : Resp → Option Word → State → State) (p : TxStep) (s : State) : State → Prop where
  | inside (u : State) (q : TxStep) : Touched s u → (∀ r, q ≠ .releaseTx r) →
      TxMove x here cleanup after p s (u.goto (here q))
  | abort (u : State) (c : AbortCause) : Touched s u → TxMove x here cleanup after p s (u.raised cleanup c)
  | passed (r : Resp) (v : Option Word) : TxMove x here cleanup after p s ((s.noted x v).goto (here (.releaseTx r)))
  | ended (r : Resp) (v : Option Word) : x.releases = false → TxMove x here cleanup after p s (after r v (s.noted x v))
  | released (u : State) (r : Resp) : p = .releaseTx r → Touched s u → TxMove x here cleanup after p s (after r none u)

theorem tickTx_move {x : Exchange} {here : TxStep → Seq} {cleanup : AbortCause → Seq}
    {after : Resp → Option Word → State → State} {p : TxStep} {s t : State}
    (h : tickTx x here cleanup after p s = .next t) : TxMove x here cleanup after p s t := by
  cases p with
  | frame arg =>
    simp only [tickTx] at h
    split at h <;> cases h
    exact stepWrite_induct (fun u hu => .inside _ _ hu.startPoll (by simp)) fun u hu => .abort _ _ hu
  | poll =>
    cases h
    split
    · refine stepRead_induct (fun bs u hu => ?_) fun u hu => .abort _ _ hu
      split
      · exact .inside _ _ hu.countPoll (by simp)
      · cases x.shape <;> exact .inside _ _ hu.retirePolls (by simp)
    · exact .inside _ _ (Touched.refl s).retirePolls (by simp)
  | trailing b =>
    cases h
    exact stepRead_induct (fun bs u hu => .inside _ _ hu (by simp)) fun u hu => .abort _ _ hu
  | judge resp value =>
    cases h
    split
    · exact .abort _ _ (Touched.refl s)
    · split
      · exact .passed resp value
      · exact .ended resp value (by simpa using ‹¬ x.releases = true›)
  | releaseTx resp =>
    cases h
    exact stepWrite_induct (fun u hu => .released _ _ rfl hu) fun u hu => .abort _ _ hu

/-! ### A data phase -/

/-- Where a step of a data phase leads: on at the same step, to the abort path, or past it, a payload being stored. -/
inductive DataMove (buf : Buffer) (off : Nat) (here : DataStep → Seq) (cleanup : AbortCause → Seq)
    (after : DataStep → State → State) (d : DataStep) (s : State) : State → Prop where
  | again (u : State) : Touched s u → DataMove buf off here cleanup after d s (u.goto (here d))
  | abort (u : State) (c : AbortCause) : Touched s u → DataMove buf off here cleanup after d s (u.raised cleanup c)
  | ended (u : State) : Touched s u → DataMove buf off here cleanup after d s (after d u)
  | stored (u : State) (bytes : List Byte) : Touched s u →
      DataMove buf off here cleanup after d s (after d (u.memWrite buf off bytes))

theorem tickData_move {token : BlockToken} {buf : Buffer} {off : Nat} {here : DataStep → Seq}
    {cleanup : AbortCause → Seq} {after : DataStep → State → State} {d : DataStep} {s t : State}
    (h : tickData token buf off here cleanup after d s = t) : DataMove buf off here cleanup after d s t := by
  subst h
  cases d with
  | startToken =>
    simp only [tickData]
    split
    · refine stepRead_induct (fun bs u hu => ?_) fun u hu => .abort _ _ hu
      split
      · exact .ended _ hu.retirePolls
      · split
        · exact .again _ hu.countPoll
        · exact .abort _ _ hu.countPoll
    · exact .abort _ _ (Touched.refl s)
  | payload => exact stepRead_induct (fun bs u hu => .stored _ bs hu) fun u hu => .abort _ _ hu
  | readCrc => exact stepRead_induct (fun bs u hu => .ended _ hu) fun u hu => .abort _ _ hu
  | sendToken | sendData | sendCrc | stopToken | finalRelease =>
    exact stepWrite_induct (fun u hu => .ended _ hu) fun u hu => .abort _ _ hu
  | dataResponse =>
    refine stepRead_induct (fun bs u hu => ?_) fun u hu => .abort _ _ hu
    split
    · exact .ended _ hu
    · exact .abort _ _ hu
  | busy w =>
    simp only [tickData]
    split
    · refine stepRead_induct (fun bs u hu => ?_) fun u hu => .abort _ _ hu
      split
      · exact .ended _ hu.retirePolls
      · exact .again _ hu.countPoll
    · exact .abort _ _ (Touched.refl s)

/-! ### The transactions of each operation -/

theorem tickInit_tx (next : Option Transfer) (x : InitTx) (q : TxStep) (s : State) :
    tickInit next (.tx x q) s =
      tickTx (Tx.init x).exchange (fun q => .bringUp next (.tx x q)) (fun c => .bringUp next (.cleanup c))
        (fun resp _ => State.afterInitTx next x resp) q s := rfl

theorem tickIo_tx (t : Transfer) (here : IoStep → Seq) (x : IoTx) (q : TxStep) (s : State) :
    tickIo t here (.tx x q) s =
      tickTx (Tx.io x).exchange (fun q => here (.tx x q)) (fun c => here (.cleanup c))
        (fun _ _ => State.afterIoTx t here x) q s := rfl

theorem tickAlone_tx (i : Instr) (q : TxStep) (s : State) :
    tickAlone i (.tx q) s =
      tickTx (aloneExchange i) (fun q => .alone i (.tx q)) (fun c => .alone i (.cleanup c)) (State.afterAloneTx i) q s :=
  rfl

/-! ### The abort path as a step -/

/-- The abort path's step makes the cleanup call, and nothing else of the record changes but the session, `last_ok` and the
counters (R236 to R239). -/
theorem abortTail_cases (c : AbortCause) (s : State) :
    ∃ ok, s.abortTail c =
      { (State.exchanged .deassert ok (.write [0xFF] .deassert ok) s.env.tail s).retireCounters with
        session := sessionAfterAbort c ok s.session, lastOk := false, seq := .idle } := by
  obtain ⟨ok, h⟩ := xferWrite_cases [0xFF] .deassert s
  exact ⟨ok, by rw [State.abortTail, h]; rfl⟩

end Sys2Proof.Proofs
end

section
/-! The invariant of a run: reset meets it and every step keeps it (R22 to R27, R171, R260; O51, O52). -/

namespace Sys2Proof.Proofs

open Sys2Proof.Machine Sys2Proof.Laws

/-! ### The part of the invariant that does not read the sequencer -/

/-- The table is built, the memory canonical, the addressing mode known in a ready period. -/
structure Core (s : State) : Prop where
  tableBuilt : s.tableBuilt = true
  table      : s.table = builtTable
  memory     : s.mem.wf = true
  addressing : s.session = .ready → s.isHc.isSome = true

theorem inv_iff {s : State} : s.Inv ↔ Core s ∧ s.seqConsistent :=
  ⟨fun h => ⟨⟨h.tableBuilt, h.table, h.memory, h.addressing⟩, h.sequencer⟩,
    fun ⟨h, hseq⟩ => ⟨h.tableBuilt, h.table, h.memory, h.addressing, hseq⟩⟩

theorem Core.touched {s u : State} (h : Core s) (hu : Touched s u) : Core u := by
  have hsame := hu.same
  exact ⟨hsame.tableBuilt.trans h.tableBuilt, hsame.table.trans h.table, hsame.mem ▸ h.memory,
    fun hready => hsame.isHc ▸ h.addressing (hsame.session ▸ hready)⟩

theorem Core.memWrite {s : State} (h : Core s) (buf : Buffer) (off : Nat) (bytes : List Byte) :
    Core (s.memWrite buf off bytes) := ⟨h.tableBuilt, h.table, wf_memWrite h.memory buf off bytes, h.addressing⟩

theorem Core.afterFailure {s : State} (h : Core s) (t : Transfer) : Core (s.afterFailure t) := by
  unfold State.afterFailure
  cases t.dir
  · exact ⟨h.tableBuilt, h.table, wf_scrub h.memory _ _, h.addressing⟩
  · exact h

theorem Core.noted {s : State} (h : Core s) (x : Exchange) (v : Option Word) : Core (s.noted x v) := by
  unfold State.noted
  split
  · exact ⟨h.tableBuilt, h.table, h.memory, fun _ => rfl⟩
  · exact h

/-- R238: no abort leaves INITIALIZING, and one leaves READY only where it was. -/
theorem sessionAfterAbort_cases (c : AbortCause) (ok : Bool) (x : Session) :
    sessionAfterAbort c ok x = .notInitialized ∨ (sessionAfterAbort c ok x = x ∧ x ≠ .initializing) := by
  unfold sessionAfterAbort
  split
  · exact .inl rfl
  · rename_i h; exact .inr ⟨rfl, fun hx => h (.inl hx)⟩

theorem Core.aborted {s : State} (h : Core s) (c : AbortCause) :
    Core (s.abortTail c) ∧ (s.abortTail c).session ≠ .initializing := by
  obtain ⟨ok, htail⟩ := abortTail_cases c s
  rw [htail]
  rcases sessionAfterAbort_cases c ok s.session with hs | ⟨hs, hne⟩
  · exact ⟨⟨h.tableBuilt, h.table, h.memory, by simp [hs]⟩, by simp [hs]⟩
  · exact ⟨⟨h.tableBuilt, h.table, h.memory, by simpa [hs] using h.addressing⟩, by simpa [hs] using hne⟩

/-! ### A step inside an operation -/

/-- The operation goes on at one of its positions with the session as it was, or has ended outside INITIALIZING. -/
def Stays {π : Type} (here : π → Seq) (s u : State) : Prop :=
  Core u ∧ (((∃ p, u.seq = here p) ∧ u.session = s.session) ∨ (u.seq = .idle ∧ u.session ≠ .initializing))

section stays
variable {π : Type} {here : π → Seq} {s u : State}

theorem stays_of_position (hu : Core u) (hsess : u.session = s.session) {p : π} (hseq : u.seq = here p) :
    Stays here s u := ⟨hu, .inl ⟨⟨p, hseq⟩, hsess⟩⟩

theorem stays_goto (hu : Core u) (hsess : u.session = s.session) (p : π) : Stays here s (u.goto (here p)) :=
  stays_of_position (p := p) ⟨hu.tableBuilt, hu.table, hu.memory, hu.addressing⟩ hsess rfl

theorem stays_raised {cleanup : AbortCause → π} (hu : Core u) (hsess : u.session = s.session) (c : AbortCause) :
    Stays here s (u.raised (fun c => here (cleanup c)) c) :=
  stays_of_position (p := cleanup c) ⟨hu.tableBuilt, hu.table, hu.memory, hu.addressing⟩ hsess rfl

theorem stays_returnCall (hu : Core u) (hne : u.session ≠ .initializing) (r : Result) : Stays here s (u.returnCall r) :=
  ⟨⟨hu.tableBuilt, hu.table, hu.memory, hu.addressing⟩, .inr ⟨rfl, hne⟩⟩

end stays

@[simp] theorem noted_session (x : Exchange) (v : Option Word) (s : State) : (s.noted x v).session = s.session := by
  unfold State.noted; split <;> rfl

/-- A transaction keeps an operation at its positions when what follows the transaction does. -/
theorem tickTx_stays {π : Type} {here : π → Seq} {x : Exchange} {pos : TxStep → π} {cleanup : AbortCause → π}
    {after : Resp → Option Word → State → State} {p : TxStep} {s t : State} (hs : Core s)
    (hafter : ∀ r v u, Core u → u.session = s.session → Stays here s (after r v u))
    (h : tickTx x (fun q => here (pos q)) (fun c => here (cleanup c)) after p s = .next t) : Stays here s t := by
  cases tickTx_move h with
  | inside u q hu _ => exact stays_goto (hs.touched hu) hu.same.session (pos q)
  | abort u c hu => exact stays_raised (hs.touched hu) hu.same.session c
  | passed r v => exact stays_goto (hs.noted _ v) (noted_session _ v s) (pos (.releaseTx r))
  | ended r v _ => exact hafter r v _ (hs.noted _ v) (noted_session _ v s)
  | released u r _ hu => exact hafter r none u (hs.touched hu) hu.same.session

/-- So does a data phase. -/
theorem tickData_stays {π : Type} {here : π → Seq} {token : BlockToken} {buf : Buffer} {off : Nat} {pos : DataStep → π}
    {cleanup : AbortCause → π} {after : DataStep → State → State} {d : DataStep} {s : State} (hs : Core s)
    (hafter : ∀ u, Core u → u.session = s.session → Stays here s (after d u)) :
    Stays here s (tickData token buf off (fun q => here (pos q)) (fun c => here (cleanup c)) after d s) := by
  generalize h : tickData token buf off (fun q => here (pos q)) (fun c => here (cleanup c)) after d s = t
  cases tickData_move h with
  | again u hu => exact stays_goto (hs.touched hu) hu.same.session (pos d)
  | abort u c hu => exact stays_raised (hs.touched hu) hu.same.session c
  | ended u hu => exact hafter u (hs.touched hu) hu.same.session
  | stored u bytes hu => exact hafter _ ((hs.touched hu).memWrite buf off bytes) hu.same.session

/-! ### A sector operation -/

section io
variable {t : Transfer} {here : IoStep → Seq} {s u : State} (hu : Core u) (hsess : u.session = s.session)
include hu hsess

theorem enterBlock_stays (j : Nat) : Stays here s (u.enterBlock t here j) := by
  unfold State.enterBlock
  cases t.dir
  · exact stays_goto (u := { u with k := j, polls := 0 }) ⟨hu.tableBuilt, hu.table, hu.memory, hu.addressing⟩ hsess _
  · exact stays_goto (u := { u with k := j }) ⟨hu.tableBuilt, hu.table, hu.memory, hu.addressing⟩ hsess _

theorem enterData_stays : Stays here s (u.enterData t here) := by
  unfold State.enterData
  split
  · exact stays_goto hu hsess _
  · exact enterBlock_stays hu hsess 0

theorem afterBlock_stays : Stays here s (u.afterBlock t here) := by
  unfold State.afterBlock
  split <;> exact stays_goto hu hsess _

theorem startPoll_stays (p : IoStep) : Stays here s (u.startPoll.goto (here p)) :=
  stays_goto (u := u.startPoll) ⟨hu.tableBuilt, hu.table, hu.memory, hu.addressing⟩ hsess p

theorem afterIoTx_stays (x : IoTx) : Stays here s (u.afterIoTx t here x) := by
  cases x with
  | readOne | readMany | writeOne | writeMany => exact enterData_stays hu hsess
  | stopRead => exact startPoll_stays hu hsess _
  | appErase | eraseCount => exact stays_goto hu hsess _

theorem afterIoData_stays (hne : s.session ≠ .initializing) (d : DataStep) : Stays here s (u.afterIoData t here d) := by
  cases d with
  | startToken | payload | sendToken | sendData | sendCrc => exact stays_goto hu hsess _
  | readCrc => exact afterBlock_stays hu hsess
  | dataResponse | stopToken => exact startPoll_stays hu hsess _
  | busy w =>
    cases w with
    | block => exact afterBlock_stays hu hsess
    | stopCommand | stopToken => exact stays_goto hu hsess _
  | finalRelease =>
    exact stays_returnCall (u := u.settleOk) ⟨hu.tableBuilt, hu.table, hu.memory, hu.addressing⟩ (hsess ▸ hne) _

end io

theorem tickIo_stays {t : Transfer} {here : IoStep → Seq} {p : IoStep} {s u : State} (hs : Core s)
    (hne : s.session ≠ .initializing) (h : tickIo t here p s = .next u) : Stays here s u := by
  cases p with
  | range =>
    cases h
    split
    · exact stays_goto hs rfl _
    · refine stays_returnCall (hs.afterFailure t) ?_ _
      unfold State.afterFailure
      cases t.dir <;> exact hne
  | address x => cases h; exact stays_goto hs rfl _
  | tx x q =>
    rw [tickIo_tx] at h
    exact tickTx_stays (pos := .tx x) (cleanup := .cleanup) hs (fun _ _ u hu hsess => afterIoTx_stays hu hsess x) h
  | nextBlock j =>
    cases h
    split
    · exact enterBlock_stays hs rfl j
    · cases t.dir <;> exact stays_goto hs rfl _
  | data d =>
    cases h
    exact tickData_stays (pos := .data) (cleanup := .cleanup) hs fun u hu hsess => afterIoData_stays hu hsess hne d
  | cleanup c =>
    cases h
    obtain ⟨hcore, hsess⟩ := hs.aborted c
    refine stays_returnCall (hcore.afterFailure t) ?_ _
    unfold State.afterFailure
    cases t.dir <;> exact hsess

/-! ### An operation run alone -/

theorem afterAloneTx_stays {i : Instr} {s u : State} (hu : Core u) (hsess : u.session = s.session)
    (hne : s.session ≠ .initializing) (r : Resp) (v : Option Word) : Stays (.alone i) s (u.afterAloneTx i r v) := by
  unfold State.afterAloneTx
  split
  · exact stays_goto (u := u.startPoll) ⟨hu.tableBuilt, hu.table, hu.memory, hu.addressing⟩ hsess _
  all_goals exact stays_returnCall hu (hsess ▸ hne) _

theorem afterAloneData_stays {i : Instr} {s u : State} (hu : Core u) (hsess : u.session = s.session)
    (hne : s.session ≠ .initializing) (d : DataStep) : Stays (.alone i) s (u.afterAloneData i d) := by
  unfold State.afterAloneData
  split
  · exact stays_goto (u := u.startPoll) ⟨hu.tableBuilt, hu.table, hu.memory, hu.addressing⟩ hsess _
  · exact stays_goto hu hsess _
  · exact stays_returnCall hu (hsess ▸ hne) _

theorem tickAlone_stays {i : Instr} {p : AloneStep} {s u : State} (hs : Core s)
    (hne : s.session ≠ .initializing) (h : tickAlone i p s = .next u) : Stays (.alone i) s u := by
  cases p with
  | tx q =>
    rw [tickAlone_tx] at h
    exact tickTx_stays (pos := .tx) (cleanup := .cleanup) hs (fun r v u hu hsess => afterAloneTx_stays hu hsess hne r v) h
  | data d =>
    cases h
    exact tickData_stays (pos := .data) (cleanup := .cleanup) hs fun u hu hsess => afterAloneData_stays hu hsess hne d
  | cleanup c =>
    cases h
    obtain ⟨hcore, hsess⟩ := hs.aborted c
    exact stays_returnCall hcore hsess _

/-! ### Initialization -/

/-- An initialization goes on, the addressing mode known from step 6 on. -/
theorem inv_bringUp {u : State} {next : Option Transfer} {p : InitStep} (hu : Core u) (hseq : u.seq = .bringUp next p)
    (hsess : u.session = .initializing) (hcap : p.afterCapacity = true → u.isHc.isSome = true)
    (hadm : ∀ t, next = some t → t.admitted = true) : u.Inv :=
  inv_iff.2 ⟨hu, by simpa [State.seqConsistent, hseq] using ⟨hsess, hcap, hadm⟩⟩

theorem inv_idle {u : State} (hu : Core u) (hseq : u.seq = .idle) (hsess : u.session ≠ .initializing) : u.Inv :=
  inv_iff.2 ⟨hu, by simpa [State.seqConsistent, hseq] using hsess⟩

section bringUp
variable {next : Option Transfer} {s u : State} (hu : Core u) (hsess : u.session = .initializing)
  (hadm : ∀ t, next = some t → t.admitted = true)
include hu hsess hadm

/-- To a position before step 6 writes the addressing mode. -/
theorem goto_bringUp_inv {p : InitStep} (hp : p.afterCapacity = false) : (u.goto (.bringUp next p)).Inv :=
  inv_bringUp (p := p) ⟨hu.tableBuilt, hu.table, hu.memory, hu.addressing⟩ rfl hsess (by simp [hp]) hadm

/-- To any position, when the addressing mode is known. -/
theorem goto_bringUp_inv_of_isHc {p : InitStep} (hcap : u.isHc.isSome = true) : (u.goto (.bringUp next p)).Inv :=
  inv_bringUp (p := p) ⟨hu.tableBuilt, hu.table, hu.memory, hu.addressing⟩ rfl hsess (fun _ => hcap) hadm

theorem raised_bringUp_inv (c : AbortCause) : (u.raised (fun c => .bringUp next (.cleanup c)) c).Inv :=
  inv_bringUp (p := .cleanup c) ⟨hu.tableBuilt, hu.table, hu.memory, hu.addressing⟩ rfl hsess (by simp [InitStep.afterCapacity]) hadm

theorem afterInitTx_inv (x : InitTx) (r : Resp) (hcap : x = .ocrPower → u.isHc.isSome = true) :
    (u.afterInitTx next x r).Inv := by
  cases x <;> simp only [State.afterInitTx]
  case goIdle | ifCond | appOpCond => exact goto_bringUp_inv hu hsess hadm rfl
  case ocrVoltage =>
    exact goto_bringUp_inv (u := { u with iter := 0 }) ⟨hu.tableBuilt, hu.table, hu.memory, hu.addressing⟩ hsess hadm rfl
  case opCond => split <;> exact goto_bringUp_inv hu hsess hadm rfl
  case ocrPower => exact goto_bringUp_inv_of_isHc hu hsess hadm (hcap rfl)

end bringUp

/-- A transaction of initialization: the check of step 6 writes the addressing mode before its release. -/
theorem tickInitTx_inv {next : Option Transfer} {x : InitTx} {q : TxStep} {s t : State} (hs : Core s)
    (hsess : s.session = .initializing) (hcap : (InitStep.tx x q).afterCapacity = true → s.isHc.isSome = true)
    (hadm : ∀ t, next = some t → t.admitted = true) (h : tickInit next (.tx x q) s = .next t) : t.Inv := by
  rw [tickInit_tx] at h
  cases tickTx_move h with
  | inside u q' hu hq' =>
    refine goto_bringUp_inv (hs.touched hu) (hu.same.session.trans hsess) hadm ?_
    cases q' with
    | releaseTx r => exact absurd rfl (hq' r)
    | frame | poll | trailing | judge => cases x <;> rfl
  | abort u c hu => exact raised_bringUp_inv (hs.touched hu) (hu.same.session.trans hsess) hadm c
  | passed r v =>
    by_cases hx : x = .ocrPower
    · subst hx
      exact goto_bringUp_inv_of_isHc (hs.noted _ v) ((noted_session ..).trans hsess) hadm rfl
    · refine goto_bringUp_inv (hs.noted _ v) ((noted_session ..).trans hsess) hadm ?_
      cases x with
      | ocrPower => exact absurd rfl hx
      | goIdle | ifCond | ocrVoltage | appOpCond | opCond => rfl
  | ended r v hrel => cases hrel
  | released u r hq hu =>
    subst hq
    refine afterInitTx_inv (hs.touched hu) (hu.same.session.trans hsess) hadm x r fun hx => ?_
    subst hx
    exact hu.same.isHc ▸ hcap rfl

/-- A clock selection touches the trace and the clock only. -/
theorem Core.clocked {s : State} (h : Core s) (rate : Rate) (ok : Bool) (rest : List Answer) :
    Core (State.clocked rate ok rest s) := ⟨h.tableBuilt, h.table, h.memory, h.addressing⟩

theorem tickInit_inv {next : Option Transfer} {p : InitStep} {s t : State} (hs : Core s)
    (hsess : s.session = .initializing) (hcap : p.afterCapacity = true → s.isHc.isSome = true)
    (hadm : ∀ t, next = some t → t.admitted = true) (h : tickInit next p s = .next t) : t.Inv := by
  cases p with
  | tx x q => exact tickInitTx_inv hs hsess hcap hadm h
  | slowClock =>
    cases h
    rcases stepClock_cases (s := s) (cleanup := fun c => .bringUp next (.cleanup c)) .slow
      (State.goto (.bringUp next .wake)) with h | h <;> rw [h]
    · exact goto_bringUp_inv (hs.clocked ..) hsess hadm rfl
    · exact raised_bringUp_inv (hs.clocked ..) hsess hadm _
  | wake =>
    cases h
    exact stepWrite_induct (fun u hu => goto_bringUp_inv (hs.touched hu) (hu.same.session.trans hsess) hadm rfl)
      fun u hu => raised_bringUp_inv (hs.touched hu) (hu.same.session.trans hsess) hadm _
  | opCondRound =>
    cases h
    split
    · exact goto_bringUp_inv (u := { s with iter := s.iter + 1 }) ⟨hs.tableBuilt, hs.table, hs.memory, hs.addressing⟩
        hsess hadm rfl
    · exact raised_bringUp_inv hs hsess hadm _
  | fastClock =>
    cases h
    rcases stepClock_cases (s := s) (cleanup := fun c => .bringUp next (.cleanup c)) .fast
      (State.goto (.bringUp next .enterReady)) with h | h <;> rw [h]
    · exact goto_bringUp_inv_of_isHc (hs.clocked ..) hsess hadm (hcap rfl)
    · exact raised_bringUp_inv (hs.clocked ..) hsess hadm _
  | enterReady =>
    cases h
    have hready : ∀ u : State, u.tableBuilt = s.tableBuilt → u.table = s.table → u.mem = s.mem → u.isHc = s.isHc → Core u :=
      fun u h1 h2 h3 h4 => ⟨h1.trans hs.tableBuilt, h2.trans hs.table, h3 ▸ hs.memory, fun _ => h4 ▸ hcap rfl⟩
    cases next with
    | none => exact inv_idle (hready _ rfl rfl rfl rfl) rfl (by simp)
    | some t =>
      refine inv_iff.2 ⟨hready _ rfl rfl rfl rfl, ?_⟩
      exact ⟨rfl, hadm t rfl⟩
  | cleanup c =>
    cases h
    obtain ⟨hcore, hne⟩ := hs.aborted c
    cases next with
    | none => exact inv_idle ⟨hcore.tableBuilt, hcore.table, hcore.memory, hcore.addressing⟩ rfl hne
    | some t =>
      have hfail := hcore.afterFailure t
      refine inv_idle ⟨hfail.tableBuilt, hfail.table, hfail.memory, hfail.addressing⟩ rfl ?_
      simp only [State.failBringUp, returnCall_session, State.afterFailure]
      cases t.dir <;> exact hne

/-! ### The operation in progress -/

theorem tick_inv {s t : State} (hs : s.Inv) (hseq : s.seq ≠ .idle) (h : tick s = .next t) : t.Inv := by
  obtain ⟨hcore, hcons⟩ := inv_iff.1 hs
  unfold tick at h
  unfold State.seqConsistent at hcons
  split at h <;> rename_i hq <;> simp only [hq] at hcons
  · exact absurd hq hseq
  · obtain ⟨hsess, hcap, hadm⟩ := hcons
    exact tickInit_inv hcore hsess hcap hadm h
  · obtain ⟨hsess, hadm⟩ := hcons
    obtain ⟨hcore', ⟨⟨p, hp⟩, hsess'⟩ | ⟨hidle, hne⟩⟩ := tickIo_stays hcore (by simp [hsess]) h
    · exact inv_iff.2 ⟨hcore', by simpa [State.seqConsistent, hp] using ⟨hsess'.trans hsess, hadm⟩⟩
    · exact inv_idle hcore' hidle hne
  · obtain ⟨hsess, hbuf⟩ := hcons
    obtain ⟨hcore', ⟨⟨p, hp⟩, hsess'⟩ | ⟨hidle, hne⟩⟩ := tickIo_stays hcore hsess h
    · exact inv_iff.2 ⟨hcore', by simpa [State.seqConsistent, hp] using ⟨hsess' ▸ hsess, hbuf⟩⟩
    · exact inv_idle hcore' hidle hne
  · obtain ⟨hcore', ⟨⟨p, hp⟩, hsess'⟩ | ⟨hidle, hne⟩⟩ := tickAlone_stays hcore hcons h
    · exact inv_iff.2 ⟨hcore', by simpa [State.seqConsistent, hp] using hsess' ▸ hcons⟩
    · exact inv_idle hcore' hidle hne

/-! ### The beginning of an operation -/

/-- The invariant of an idle block. -/
structure Resting (s : State) : Prop extends Core s where
  idle     : s.seq = .idle
  notBusy  : s.session ≠ .initializing

theorem resting_iff {s : State} (hseq : s.seq = .idle) : s.Inv ↔ Resting s := by
  rw [inv_iff, State.seqConsistent, hseq]
  exact ⟨fun ⟨h, hne⟩ => ⟨h, hseq, hne⟩, fun h => ⟨h.toCore, h.notBusy⟩⟩

theorem Resting.inv {s : State} (h : Resting s) : s.Inv := (resting_iff h.idle).2 h

/-- Nothing changed that an idle block's invariant reads. -/
theorem Resting.of_same {s t : State} (h : Resting s) (htb : t.tableBuilt = s.tableBuilt) (ht : t.table = s.table)
    (hm : t.mem = s.mem) (hi : t.isHc = s.isHc) (hs : t.session = s.session) (hq : t.seq = s.seq) : Resting t :=
  ⟨⟨htb.trans h.tableBuilt, ht.trans h.table, hm ▸ h.memory, fun hr => hi ▸ h.addressing (hs ▸ hr)⟩, hq.trans h.idle,
    hs ▸ h.notBusy⟩

theorem Resting.returning {s : State} (h : Resting s) (r : Result) : Resting (s.returning r) :=
  h.of_same rfl rfl rfl rfl rfl rfl

theorem Resting.abort {s : State} (h : Resting s) (c : AbortCause) : Resting (s.abort c) := by
  obtain ⟨hcore, hne⟩ := Core.aborted (s := { s with cause := some c }) ⟨h.tableBuilt, h.table, h.memory, h.addressing⟩ c
  exact ⟨hcore, rfl, hne⟩

theorem Resting.afterFailure {s : State} (h : Resting s) (t : Transfer) : Resting (s.afterFailure t) := by
  refine ⟨h.toCore.afterFailure t, ?_, ?_⟩ <;> unfold State.afterFailure <;> cases t.dir
  exacts [h.idle, h.idle, h.notBusy, h.notBusy]

theorem tolerant_resting : Tolerant fun s t => Resting s → Resting t where
  refl _ h := h
  trans h k hs := k (h hs)
  exchanged _ _ _ _ h := h.of_same rfl rfl rfl rfl rfl rfl
  polls _ _ h := h.of_same rfl rfl rfl rfl rfl rfl
  retired _ h := h.of_same rfl rfl rfl rfl rfl rfl

/-- An operation that keeps an idle block's invariant keeps it when it is run alone. -/
theorem runAlone_resting {α : Type} {op : Op α} {ret : α → Result} {s t : State}
    (hop : Keeps (fun s t => Resting s → Resting t) op) (hs : Resting s) (h : runAlone op ret s = .next t) : Resting t :=
  tolerant_resting.runAlone_next hop (fun c _ h => h.abort c) (fun _ _ h => h.of_same rfl rfl rfl rfl rfl rfl) h hs

/-- R210: with no call in progress a host call is its body. -/
theorem Resting.whenIdle {s : State} (h : Resting s) (call : Host.Outcome State Fault Refusal) : whenIdle s call = call :=
  whenIdle_of_idle h.idle call

/-- What is done in one step keeps an idle block's invariant. -/
theorem exec_resting {i : Instr} {s t : State} (hi : i.runsInOneStep = true) (hs : Resting s) (h : exec i s = .next t) :
    Resting t := by
  cases i with
  | hostStatus drive =>
    rw [exec, execHostStatus, hs.whenIdle] at h; cases h; exact hs.returning _
  | hostSync drive => rw [exec_hostSync, hs.whenIdle] at h; cases h; exact hs.returning _
  | hostTimestamp =>
    rw [exec, execHostTimestamp, hs.whenIdle] at h
    split at h <;> cases h
    unfold State.nextCalendar
    split <;> exact hs.of_same rfl rfl rfl rfl rfl rfl
  | buildTable =>
    have hbuilt : Resting s.buildTable := by
      refine ⟨⟨buildTable_tableBuilt s, buildTable_table s, ?_, ?_⟩, ?_, ?_⟩
      exacts [by simpa using hs.memory, by simpa using hs.addressing, by simpa using hs.idle, by simpa using hs.notBusy]
    cases h; exact hbuilt.returning .done
  | fold crc byte => exact runAlone_resting (tolerant_resting.keeps_fold _ _) hs h
  | compute bytes => exact runAlone_resting (tolerant_resting.keeps_compute _) hs h
  | assemble index arg => exact runAlone_resting (tolerant_resting.keeps_assemble _ _) hs h
  | addressFor sector => exact runAlone_resting (tolerant_resting.keeps_addressFor _) hs h
  | xferWrite bytes pol =>
    obtain ⟨ok, hx⟩ := xferWrite_cases bytes pol s
    rw [exec, execXferWrite, hx] at h; cases h; exact hs.of_same rfl rfl rfl rfl rfl rfl
  | xferRead n pol =>
    obtain ⟨a, hx, -⟩ := xferRead_cases n pol s
    rw [exec, execXferRead, hx] at h; cases h; exact hs.of_same rfl rfl rfl rfl rfl rfl
  | xferReadWrite out pol =>
    obtain ⟨a, hx, -⟩ := xferReadWrite_cases out pol s
    rw [exec, execXferReadWrite, hx] at h; cases h; exact hs.of_same rfl rfl rfl rfl rfl rfl
  | xferSetClock rate =>
    obtain ⟨ok, hx⟩ := xferSetClock_cases rate s
    rw [exec, execXferSetClock, hx] at h; cases h; exact hs.of_same rfl rfl rfl rfl rfl rfl
  | cleanup =>
    obtain ⟨ok, hx⟩ := xferWrite_cases [0xFF] .deassert s
    rw [exec, execCleanup, hx] at h; cases h; exact hs.of_same rfl rfl rfl rfl rfl rfl
  | resetBlock => cases h; exact ⟨⟨rfl, rfl, hs.memory, fun hr => nomatch hr⟩, rfl, fun hb => nomatch hb⟩
  | _ => cases hi

section start
variable {s : State} (hs : Resting s)
include hs

/-- An operation run alone begins. -/
theorem Resting.goto_alone (i : Instr) (p : AloneStep) : (s.goto (.alone i p)).Inv :=
  inv_iff.2 ⟨⟨hs.tableBuilt, hs.table, hs.memory, hs.addressing⟩, hs.notBusy⟩

theorem Resting.enterPoll (i : Instr) (p : AloneStep) (answers : List Answer) : (s.enterPoll i p answers).Inv :=
  (hs.of_same (t := (s.deliver answers).startPoll) rfl rfl rfl rfl rfl rfl).goto_alone i p

/-- An initialization begins. -/
theorem Resting.bringUp {next : Option Transfer} (hadm : ∀ t, next = some t → t.admitted = true) :
    (({ s with session := .initializing } : State).goto (.bringUp next .slowClock)).Inv :=
  goto_bringUp_inv (u := { s with session := .initializing }) ⟨hs.tableBuilt, hs.table, hs.memory, fun hr => nomatch hr⟩
    rfl hadm rfl

theorem Resting.enterInit : s.enterInit.Inv := hs.bringUp (fun _ ht => nomatch ht)

theorem Resting.startSector {t : Transfer} {u : State} (h : startSector t s = .next u) : u.Inv := by
  unfold Machine.startSector at h
  split at h <;> cases h
  exact inv_iff.2 ⟨⟨hs.tableBuilt, hs.table, hs.memory, hs.addressing⟩, hs.notBusy, ‹_›⟩

omit hs in
theorem startBlock_inv {buf : Buffer} {off : Nat} {u v : State} (hu : u.Inv) (h : startBlock buf off u = .next v) :
    v.Inv := by
  unfold startBlock at h
  split at h <;> cases h
  exact hu

omit hs in
/-- R215: the parameter checks pass exactly the calls a transfer can be made for. -/
theorem admitted_of_pass {drive : Nat} {dir : Direction} {buf : Buffer} {sector count : Word}
    (h : checkParams drive buf count = .pass) : (Transfer.ofCall dir buf sector count).admitted = true := by
  unfold checkParams at h
  split at h <;> [cases h; skip]
  split at h <;> [cases h; rename_i hcount]
  split at h <;> [rename_i hbuf; cases h]
  simpa [Transfer.admitted, Transfer.ofCall, hbuf] using hcount

theorem Resting.startSectorCall {drive : Nat} {dir : Direction} {buf : Buffer} {sector count : Word} {u : State}
    (h : startSectorCall drive (.ofCall dir buf sector count) s = .next u) : u.Inv := by
  unfold Machine.startSectorCall at h
  split at h
  · cases h; exact ((hs.afterFailure _).returning _).inv
  · cases h
  · rename_i hpass
    have hadm : (Transfer.ofCall dir buf sector count).admitted = true := admitted_of_pass hpass
    cases h
    unfold State.enterCall
    split
    · exact inv_iff.2 ⟨⟨hs.tableBuilt, hs.table, hs.memory, hs.addressing⟩, ‹_›, hadm⟩
    · exact hs.bringUp fun t ht => Option.some.inj ht ▸ hadm

/-- An idle block's invariant is kept by the beginning of every operation. -/
theorem start_inv {i : Instr} {t : State} (h : start i s = .next t) : t.Inv := by
  by_cases hi : i.runsInOneStep = true
  · exact (exec_resting hi hs (start_of_runsInOneStep hi s ▸ h)).inv
  cases i with
  | hostInitialize drive =>
    simp only [start, startInitialize] at h
    split at h <;> cases h
    · exact (hs.returning _).inv
    · exact hs.enterInit
  | sessionInitialize => cases h; exact hs.enterInit
  | ensureReady =>
    simp only [start] at h
    split at h <;> cases h
    · exact (hs.returning _).inv
    · exact hs.enterInit
  | hostRead | hostWrite => exact hs.startSectorCall h
  | readSingle | readMulti | writeSingle | writeMulti => exact hs.startSector h
  | cmd0 | cmd8 | cmd12 | cmd17 | cmd18 | cmd24 | cmd25 | cmd55 | cmd58 | acmd23 | acmd41 => cases h; exact hs.goto_alone _ _
  | sendCmd index arg shape =>
    simp only [start] at h
    split at h <;> cases h
    exact hs.goto_alone _ _
  | pollResponse | r1 | r3 | r7 | pollToken | tokenStartBlock | busyWait => cases h; exact hs.enterPoll _ _ _
  | receiveBlock => exact startBlock_inv (hs.enterPoll _ _ _) h
  | sendBlock => exact startBlock_inv (hs.goto_alone _ _) h
  | tokenStartMultiWrite | tokenStopTran | checkDataResponse | release => cases h; exact hs.goto_alone _ _
  | dataResponseAccepted upper =>
    cases h; exact (hs.of_same (t := s.deliver _) rfl rfl rfl rfl rfl rfl).goto_alone _ _
  | abortPath c =>
    cases h; exact (hs.of_same (t := { s with cause := some c }) rfl rfl rfl rfl rfl rfl).goto_alone _ _
  | _ => exact absurd rfl hi

theorem startWire_inv {slot : Slot} {bytes : List Byte} {t : State} (h : startWire slot bytes s = .next t) : t.Inv := by
  unfold startWire at h
  split at h
  · exact start_inv hs h
  · split at h
    · exact start_inv (hs.of_same (t := s.deliver _) rfl rfl rfl rfl rfl rfl) h
    · cases h

theorem serveNext_inv {t : State} (h : serveNext s = .next t) : t.Inv := by
  unfold serveNext at h
  split at h
  · cases h; exact hs.inv
  · rename_i r rest hr
    have hs' : Resting { s with requests := rest } := hs.of_same rfl rfl rfl rfl rfl rfl
    cases r with
    | wire slot bytes => exact startWire_inv hs' h
    | start i => exact start_inv hs' h

end start

/-- Settles O51: a step takes a request of an idle block or makes the next move of the operation in progress. -/
theorem everyStepKeepsTheInvariant : Obligations.EveryStepKeepsTheInvariant := by
  intro s t hs h
  unfold step at h
  split at h <;> rename_i hseq
  · exact serveNext_inv ((resting_iff hseq).1 hs) h
  · exact tick_inv hs hseq h

/-- Settles O52: field by field of the reset state. -/
theorem resetMeetsTheInvariant : Obligations.ResetMeetsTheInvariant :=
  Resting.inv ⟨⟨rfl, rfl, reset_memory_wf, fun hr => nomatch hr⟩, rfl, fun hb => nomatch hb⟩

end Sys2Proof.Proofs
end

section
/-! No step makes more than one transport call, and an operation in progress goes on at every step (R8, R9, R65; O55). -/

namespace Sys2Proof.Proofs

open Sys2Proof.Machine Sys2Proof.Laws

/-! ### What follows a transport call makes none -/

/-- No transport call was made, and nothing changed that no operation in progress changes. -/
structure Quiet (s t : State) : Prop where
  trace : t.trace = s.trace
  fixed : SameFixed s t

/-- The same with at most one transport call. -/
structure OneCall (s t : State) : Prop where
  grew  : TraceGrew 1 s t
  fixed : SameFixed s t

theorem SameFixed.trans {s t u : State} (h : SameFixed s t) (k : SameFixed t u) : SameFixed s u :=
  ⟨k.table.trans h.table, k.tableBuilt.trans h.tableBuilt, k.params.trans h.params, k.clockAnswers.trans h.clockAnswers,
    k.requests.trans h.requests⟩

theorem Quiet.oneCall {s t : State} (h : Quiet s t) : OneCall s t := ⟨⟨[], by simpa using h.trace, Nat.zero_le 1⟩, h.fixed⟩

theorem OneCall.quiet {s t u : State} (h : OneCall s t) (k : Quiet t u) : OneCall s u :=
  let ⟨es, htrace, hlen⟩ := h.grew
  ⟨⟨es, k.trace.trans htrace, hlen⟩, SameFixed.trans h.fixed k.fixed⟩

theorem Touched.oneCall {s u : State} (h : Touched s u) : OneCall s u :=
  have k := h.same
  ⟨h.grew, ⟨k.table, k.tableBuilt, k.params, k.clockAnswers, k.requests⟩⟩

theorem quiet_goto (q : Seq) (s : State) : Quiet s (s.goto q) := ⟨rfl, rfl, rfl, rfl, rfl, rfl⟩

theorem quiet_raised (cleanup : AbortCause → Seq) (c : AbortCause) (s : State) : Quiet s (s.raised cleanup c) :=
  ⟨rfl, rfl, rfl, rfl, rfl, rfl⟩

theorem quiet_returnCall (r : Result) (s : State) : Quiet s (s.returnCall r) := ⟨rfl, rfl, rfl, rfl, rfl, rfl⟩

theorem quiet_noted (x : Exchange) (v : Option Word) (s : State) : Quiet s (s.noted x v) := by
  unfold State.noted; split <;> exact ⟨rfl, rfl, rfl, rfl, rfl, rfl⟩

theorem quiet_memWrite (buf : Buffer) (off : Nat) (bytes : List Byte) (s : State) : Quiet s (s.memWrite buf off bytes) :=
  ⟨rfl, rfl, rfl, rfl, rfl, rfl⟩

theorem quiet_afterFailure (t : Transfer) (s : State) : Quiet s (s.afterFailure t) := by
  unfold State.afterFailure; cases t.dir <;> exact ⟨rfl, rfl, rfl, rfl, rfl, rfl⟩

theorem quiet_afterInitTx (next : Option Transfer) (x : InitTx) (r : Resp) (s : State) :
    Quiet s (s.afterInitTx next x r) := by
  cases x with
  | opCond => simp only [State.afterInitTx]; split <;> exact quiet_goto _ s
  | _ => exact ⟨rfl, rfl, rfl, rfl, rfl, rfl⟩

theorem quiet_enterBlock (t : Transfer) (here : IoStep → Seq) (j : Nat) (s : State) : Quiet s (s.enterBlock t here j) := by
  unfold State.enterBlock; cases t.dir <;> exact ⟨rfl, rfl, rfl, rfl, rfl, rfl⟩

theorem quiet_enterData (t : Transfer) (here : IoStep → Seq) (s : State) : Quiet s (s.enterData t here) := by
  unfold State.enterData; split
  · exact quiet_goto _ s
  · exact quiet_enterBlock t here 0 s

theorem quiet_afterBlock (t : Transfer) (here : IoStep → Seq) (s : State) : Quiet s (s.afterBlock t here) := by
  unfold State.afterBlock; split <;> exact quiet_goto _ s

theorem quiet_afterIoTx (t : Transfer) (here : IoStep → Seq) (x : IoTx) (s : State) :
    Quiet s (s.afterIoTx t here x) := by
  cases x with
  | readOne | readMany | writeOne | writeMany => exact quiet_enterData t here s
  | stopRead | appErase | eraseCount => exact ⟨rfl, rfl, rfl, rfl, rfl, rfl⟩

theorem quiet_afterIoData (t : Transfer) (here : IoStep → Seq) (d : DataStep) (s : State) :
    Quiet s (s.afterIoData t here d) := by
  cases d with
  | readCrc => exact quiet_afterBlock t here s
  | busy w =>
    cases w with
    | block => exact quiet_afterBlock t here s
    | stopCommand | stopToken => exact quiet_goto _ s
  | _ => exact ⟨rfl, rfl, rfl, rfl, rfl, rfl⟩

theorem quiet_afterAloneTx (i : Instr) (r : Resp) (v : Option Word) (s : State) : Quiet s (s.afterAloneTx i r v) := by
  unfold State.afterAloneTx; split <;> exact ⟨rfl, rfl, rfl, rfl, rfl, rfl⟩

theorem quiet_afterAloneData (i : Instr) (d : DataStep) (s : State) : Quiet s (s.afterAloneData i d) := by
  unfold State.afterAloneData; split <;> exact ⟨rfl, rfl, rfl, rfl, rfl, rfl⟩

/-! ### The operation in progress -/

theorem abortTail_oneCall (c : AbortCause) (s : State) : OneCall s (s.abortTail c) := by
  obtain ⟨ok, h⟩ := abortTail_cases c s
  rw [h]
  exact ⟨⟨_, rfl, le_rfl⟩, rfl, rfl, rfl, rfl, rfl⟩

theorem stepClock_oneCall {cleanup : AbortCause → Seq} {rate : Rate} {k : State → State} {s : State}
    (hk : ∀ u, Quiet u (k u)) : OneCall s (stepClock cleanup rate k s) := by
  have hclock : ∀ ok, OneCall s (State.clocked rate ok s.env.tail s) := fun ok => ⟨⟨_, rfl, le_rfl⟩, rfl, rfl, rfl, rfl, rfl⟩
  rcases stepClock_cases (cleanup := cleanup) (s := s) rate k with h | h <;> rw [h]
  · exact (hclock _).quiet (hk _)
  · exact (hclock _).quiet (quiet_raised ..)

theorem stepWrite_oneCall {cleanup : AbortCause → Seq} {bytes : List Byte} {pol : Policy} {k : State → State} {s : State}
    (hk : ∀ u, Quiet u (k u)) : OneCall s (stepWrite cleanup bytes pol k s) :=
  stepWrite_induct (fun u hu => hu.oneCall.quiet (hk u)) fun _ hu => hu.oneCall.quiet (quiet_raised ..)

theorem tickTx_oneCall {x : Exchange} {here : TxStep → Seq} {cleanup : AbortCause → Seq}
    {after : Resp → Option Word → State → State} {p : TxStep} {s t : State} (hafter : ∀ r v u, Quiet u (after r v u))
    (h : tickTx x here cleanup after p s = .next t) : OneCall s t := by
  cases tickTx_move h with
  | inside u q hu _ => exact hu.oneCall.quiet (quiet_goto _ u)
  | abort u c hu => exact hu.oneCall.quiet (quiet_raised _ c u)
  | passed r v => exact (quiet_noted x v s).oneCall.quiet (quiet_goto _ _)
  | ended r v _ => exact (quiet_noted x v s).oneCall.quiet (hafter r v _)
  | released u r _ hu => exact hu.oneCall.quiet (hafter r none u)

theorem tickData_oneCall {token : BlockToken} {buf : Buffer} {off : Nat} {here : DataStep → Seq}
    {cleanup : AbortCause → Seq} {after : DataStep → State → State} {d : DataStep} {s : State}
    (hafter : ∀ u, Quiet u (after d u)) : OneCall s (tickData token buf off here cleanup after d s) := by
  generalize h : tickData token buf off here cleanup after d s = t
  cases tickData_move h with
  | again u hu => exact hu.oneCall.quiet (quiet_goto _ u)
  | abort u c hu => exact hu.oneCall.quiet (quiet_raised _ c u)
  | ended u hu => exact hu.oneCall.quiet (hafter u)
  | stored u bytes hu => exact (hu.oneCall.quiet (quiet_memWrite buf off bytes u)).quiet (hafter _)

theorem tickInit_oneCall {next : Option Transfer} {p : InitStep} {s t : State} (h : tickInit next p s = .next t) :
    OneCall s t := by
  cases p with
  | tx x q => rw [tickInit_tx] at h; exact tickTx_oneCall (fun r _ u => quiet_afterInitTx next x r u) h
  | slowClock | fastClock => cases h; exact stepClock_oneCall fun u => quiet_goto _ u
  | wake => cases h; exact stepWrite_oneCall fun u => quiet_goto _ u
  | opCondRound => cases h; split <;> exact (Quiet.oneCall ⟨rfl, rfl, rfl, rfl, rfl, rfl⟩)
  | enterReady => cases h; cases next <;> exact (Quiet.oneCall ⟨rfl, rfl, rfl, rfl, rfl, rfl⟩)
  | cleanup c =>
    cases h
    cases next with
    | none => exact (abortTail_oneCall c s).quiet (quiet_returnCall _ _)
    | some t => exact ((abortTail_oneCall c s).quiet (quiet_afterFailure t _)).quiet (quiet_returnCall _ _)

theorem tickIo_oneCall {t : Transfer} {here : IoStep → Seq} {p : IoStep} {s u : State} (h : tickIo t here p s = .next u) :
    OneCall s u := by
  cases p with
  | tx x q => rw [tickIo_tx] at h; exact tickTx_oneCall (fun _ _ u => quiet_afterIoTx t here x u) h
  | data d => cases h; exact tickData_oneCall fun u => quiet_afterIoData t here d u
  | range =>
    cases h
    split
    · exact (quiet_goto _ s).oneCall
    · exact (quiet_afterFailure t s).oneCall.quiet (quiet_returnCall _ _)
  | address x => cases h; exact (quiet_goto _ s).oneCall
  | nextBlock j =>
    cases h
    split
    · exact (quiet_enterBlock t here j s).oneCall
    · cases t.dir <;> exact (quiet_goto _ s).oneCall
  | cleanup c => cases h; exact ((abortTail_oneCall c s).quiet (quiet_afterFailure t _)).quiet (quiet_returnCall _ _)

theorem tickAlone_oneCall {i : Instr} {p : AloneStep} {s u : State} (h : tickAlone i p s = .next u) : OneCall s u := by
  cases p with
  | tx q => rw [tickAlone_tx] at h; exact tickTx_oneCall (fun r v u => quiet_afterAloneTx i r v u) h
  | data d => cases h; exact tickData_oneCall fun u => quiet_afterAloneData i d u
  | cleanup c => cases h; exact (abortTail_oneCall c s).quiet (quiet_returnCall _ _)

theorem tick_oneCall {s t : State} (h : tick s = .next t) : OneCall s t := by
  unfold tick at h
  split at h
  · cases h; exact (Quiet.oneCall ⟨rfl, rfl, rfl, rfl, rfl, rfl⟩)
  · exact tickInit_oneCall h
  · exact tickIo_oneCall h
  · exact tickIo_oneCall h
  · exact tickAlone_oneCall h

/-- With the table built, only a transaction's frame could stop the operation in progress, and it goes on. -/
theorem tick_next {s : State} (hbuilt : s.tableBuilt = true) : ∃ t, tick s = .next t := by
  unfold tick
  split
  · exact ⟨_, rfl⟩
  · rename_i p hp
    cases p with
    | tx x q => rw [tickInit_tx]; exact tickTx_next _ _ _ q hbuilt
    | _ => exact ⟨_, rfl⟩
  · rename_i p hp
    cases p with
    | tx x q => rw [tickIo_tx]; exact tickTx_next _ _ _ q hbuilt
    | _ => exact ⟨_, rfl⟩
  · rename_i p hp
    cases p with
    | tx x q => rw [tickIo_tx]; exact tickTx_next _ _ _ q hbuilt
    | _ => exact ⟨_, rfl⟩
  · rename_i p hp
    cases p with
    | tx q => rw [tickAlone_tx]; exact tickTx_next _ _ _ q hbuilt
    | _ => exact ⟨_, rfl⟩

/-! ### The beginning of an operation -/

theorem compute_cases (bytes : List Byte) (s : State) :
    (∃ c, compute bytes s = .ok c s) ∨ compute bytes s = .error (.fault .tableUnbuilt) s := by
  cases hbuilt : s.tableBuilt with
  | true =>
    left
    unfold compute
    generalize (0 : Byte) = c
    induction bytes generalizing c with
    | nil => exact ⟨c, rfl⟩
    | cons b bs ih =>
      have hf : fold c b s = .ok (foldWith s.table c b) s := by simp [fold, hbuilt]
      rw [List.foldlM_cons, op_bind_ok hf]
      exact ih _
  | false =>
    cases bytes with
    | nil => exact .inl ⟨0, rfl⟩
    | cons b bs => exact .inr (compute_unbuilt hbuilt b bs)

theorem assemble_cases (index : Nat) (arg : Word) (s : State) :
    (∃ f, assemble index arg s = .ok f s) ∨ assemble index arg s = .error (.fault .tableUnbuilt) s ∨
      assemble index arg s = .error (.refuse .commandIndexOutOfRange) s := by
  by_cases hi : 63 < index
  · exact .inr (.inr (assemble_refused hi arg s))
  · rw [assemble, if_neg hi]
    rcases compute_cases (frameHead index arg) s with ⟨c, h⟩ | h
    · exact .inl ⟨_, op_bind_ok h⟩
    · exact .inr (.inl (op_bind_error h))

theorem addressFor_eq (sector : Word) (s : State) :
    addressFor sector s = .ok (sectorAddress s.addressing sector) s := rfl

/-- A host call that answers a next state was made with no other in progress (R210). -/
theorem next_of_whenIdle {s t : State} {call : Host.Outcome State Fault Refusal} (h : whenIdle s call = .next t) :
    s.seq = .idle ∧ call = .next t := by
  unfold whenIdle at h
  split at h
  · exact ⟨‹_›, h⟩
  · cases h

theorem grew_of_trace_eq {s t : State} (h : t.trace = s.trace) : TraceGrew 1 s t := ⟨[], by simpa using h, Nat.zero_le 1⟩

/-- What is done in one step makes one transport call at most. -/
theorem exec_grew {i : Instr} {s t : State} (hi : i.runsInOneStep = true) (h : exec i s = .next t) : TraceGrew 1 s t := by
  cases i with
  | hostStatus drive => obtain ⟨-, h⟩ := next_of_whenIdle h; cases h; exact grew_of_trace_eq rfl
  | hostSync drive => obtain ⟨-, h⟩ := next_of_whenIdle h; cases h; exact grew_of_trace_eq rfl
  | hostTimestamp =>
    obtain ⟨-, h⟩ := next_of_whenIdle h
    split at h <;> cases h
    unfold State.nextCalendar
    split <;> exact grew_of_trace_eq rfl
  | buildTable => cases h; exact grew_of_trace_eq (by simp)
  | fold crc byte =>
    cases hbuilt : s.tableBuilt <;> simp [exec, execFold, runAlone, fold, hbuilt] at h
    subst h; exact grew_of_trace_eq rfl
  | compute bytes =>
    rcases compute_cases bytes s with ⟨c, hc⟩ | hc <;> rw [exec, execCompute, runAlone, hc] at h <;> cases h
    exact grew_of_trace_eq rfl
  | assemble index arg =>
    rcases assemble_cases index arg s with ⟨f, hf⟩ | hf | hf <;> rw [exec, execAssemble, runAlone, hf] at h <;> cases h
    exact grew_of_trace_eq rfl
  | addressFor sector => cases h; exact grew_of_trace_eq rfl
  | xferWrite bytes pol =>
    obtain ⟨ok, hx⟩ := xferWrite_cases bytes pol s
    rw [exec, execXferWrite, hx] at h; cases h; exact ⟨_, rfl, le_rfl⟩
  | xferRead n pol =>
    obtain ⟨a, hx, -⟩ := xferRead_cases n pol s
    rw [exec, execXferRead, hx] at h; cases h; exact ⟨_, rfl, le_rfl⟩
  | xferReadWrite out pol =>
    obtain ⟨a, hx, -⟩ := xferReadWrite_cases out pol s
    rw [exec, execXferReadWrite, hx] at h; cases h; exact ⟨_, rfl, le_rfl⟩
  | xferSetClock rate =>
    obtain ⟨ok, hx⟩ := xferSetClock_cases rate s
    rw [exec, execXferSetClock, hx] at h; cases h; exact ⟨_, rfl, le_rfl⟩
  | cleanup =>
    obtain ⟨ok, hx⟩ := xferWrite_cases [0xFF] .deassert s
    rw [exec, execCleanup, hx] at h; cases h; exact ⟨_, rfl, le_rfl⟩
  | resetBlock => cases h; exact grew_of_trace_eq rfl
  | _ => cases hi

theorem startSectorCall_trace {drive : Nat} {t : Transfer} {s u : State} (h : startSectorCall drive t s = .next u) :
    u.trace = s.trace := by
  unfold startSectorCall at h
  split at h <;> cases h
  · exact (quiet_afterFailure t s).trace
  · unfold State.enterCall; split <;> rfl

theorem startSector_trace {t : Transfer} {s u : State} (h : startSector t s = .next u) : u.trace = s.trace := by
  unfold startSector at h
  split at h <;> cases h
  rfl

theorem startBlock_trace {buf : Buffer} {off : Nat} {s u : State} (h : startBlock buf off s = .next u) :
    u.trace = s.trace := by
  unfold startBlock at h
  split at h <;> cases h
  rfl

/-- The beginning of any other operation makes no transport call. -/
theorem start_grew {i : Instr} {s t : State} (h : start i s = .next t) : TraceGrew 1 s t := by
  by_cases hi : i.runsInOneStep = true
  · exact exec_grew hi (start_of_runsInOneStep hi s ▸ h)
  apply grew_of_trace_eq
  cases i with
  | hostInitialize drive => simp only [start, startInitialize] at h; split at h <;> cases h <;> rfl
  | ensureReady => simp only [start] at h; split at h <;> cases h <;> rfl
  | hostRead | hostWrite => exact startSectorCall_trace h
  | readSingle | readMulti | writeSingle | writeMulti => exact startSector_trace h
  | sendCmd index arg shape => simp only [start] at h; split at h <;> cases h; rfl
  | receiveBlock buf off => exact startBlock_trace (s := s.enterPoll (.receiveBlock buf off) (.data .startToken) []) h
  | sendBlock token buf off => exact startBlock_trace (s := s.goto (.alone (.sendBlock token buf off) (.data .sendToken))) h
  | sessionInitialize | cmd0 | cmd8 | cmd12 | cmd17 | cmd18 | cmd24 | cmd25 | cmd55 | cmd58 | acmd23 | acmd41 | pollResponse
  | r1 | r3 | r7 | pollToken | tokenStartBlock | busyWait | tokenStartMultiWrite | tokenStopTran | checkDataResponse | release
  | dataResponseAccepted | abortPath => cases h; rfl
  | _ => exact absurd rfl hi

theorem serveNext_grew {s t : State} (h : serveNext s = .next t) : TraceGrew 1 s t := by
  unfold serveNext at h
  split at h
  · cases h; exact grew_of_trace_eq rfl
  · rename_i r rest hr
    cases r with
    | start i => exact start_grew (s := { s with requests := rest }) h
    | wire slot bytes =>
      simp only [serve, startWire] at h
      split at h
      · exact start_grew (s := { s with requests := rest }) h
      · split at h
        · exact start_grew (s := ({ s with requests := rest } : State).deliver _) h
        · cases h

/-- Settles O55: the parts of the sequencer make one call at most, and only a frame with no table stops one. -/
theorem eachStepMakesOneTransportCall : Obligations.EachStepMakesOneTransportCall := by
  refine ⟨fun s t h => ?_, fun s hs hseq => ?_⟩
  · unfold step at h
    split at h
    · exact serveNext_grew h
    · exact (tick_oneCall h).grew
  · obtain ⟨t, ht⟩ := tick_next hs.tableBuilt
    have hfixed := (tick_oneCall ht).fixed
    exact ⟨t, (step_tick hseq).trans ht, hfixed.requests, hfixed.params, hfixed.table⟩

end Sys2Proof.Proofs
end

section
/-! The transport primitives follow their answer, release and cleanup (R121 to R126, R145, R237; O12, O13, O14, O21). -/

namespace Sys2Proof.Proofs

open Sys2Proof.Machine Sys2Proof.Laws

/-- Settles O12: a write is one answered transfer. -/
theorem writeFollowsItsAnswer : Obligations.WriteFollowsItsAnswer := by
  intro s bytes pol bs rest
  refine ⟨fun he => ?_, fun he => ?_⟩
  · refine ⟨(State.exchanged pol true (.write bytes pol true) rest s).returning .ok, ?_, rfl, rfl, ?_⟩
    · rw [exec, execXferWrite, xferWrite_ok he]; rfl
    · cases pol <;> exact talked_returning (talked_exchanged ..) _
  · refine ⟨(State.exchanged pol false (.write bytes pol false) rest s).returning .xferFail, ?_, rfl, rfl, ?_⟩
    · rw [exec, execXferWrite, xferWrite_fail he]; rfl
    · exact talked_returning (talked_exchanged ..) _

/-- A read of the bytes answered. -/
theorem exec_xferRead_ok {n : Nat} {pol : Policy} {s : State} {bs : List Byte} {rest : List Answer}
    (he : s.env = .ok bs :: rest) (hl : bs.length = n) :
    exec (.xferRead n pol) s =
      .next ((State.exchanged pol true (.read n pol (some bs)) rest s).returning (.bytes bs)) := by
  rw [exec, execXferRead, xferRead_ok he hl]; rfl

theorem exec_xferRead_fail {n : Nat} {pol : Policy} {s : State} {rest : List Answer} (he : s.env = .fail :: rest) :
    exec (.xferRead n pol) s = .next ((State.exchanged pol false (.read n pol none) rest s).returning .xferFail) := by
  rw [exec, execXferRead, xferRead_fail he]; rfl

theorem exec_xferReadWrite_ok {out : List Byte} {pol : Policy} {s : State} {bs : List Byte} {rest : List Answer}
    (he : s.env = .ok bs :: rest) (hl : bs.length = out.length) :
    exec (.xferReadWrite out pol) s =
      .next ((State.exchanged pol true (.readWrite out pol (some bs)) rest s).returning (.bytes bs)) := by
  rw [exec, execXferReadWrite, xferReadWrite, exchange_ok he, fitBytes_exact hl]; rfl

theorem exec_xferReadWrite_fail {out : List Byte} {pol : Policy} {s : State} {rest : List Answer}
    (he : s.env = .fail :: rest) :
    exec (.xferReadWrite out pol) s =
      .next ((State.exchanged pol false (.readWrite out pol none) rest s).returning .xferFail) := by
  rw [exec, execXferReadWrite, xferReadWrite, exchange_fail he]; rfl

/-- Settles O13: a read and a simultaneous read and write are one answered transfer; what the environment lists too short or
too long is fitted to the number asked for. -/
theorem readsFollowTheirAnswer : Obligations.ReadsFollowTheirAnswer := by
  intro s n out pol bs rest
  refine ⟨fun he hl => ⟨_, exec_xferRead_ok he hl, rfl, rfl, ?_⟩, fun he => ⟨_, exec_xferRead_fail he, rfl, rfl, ?_⟩,
    fun he hl => ⟨_, exec_xferReadWrite_ok he hl, rfl, rfl, ?_⟩,
    fun he => ⟨_, exec_xferReadWrite_fail he, rfl, rfl, ?_⟩, ?_, ?_⟩
  · cases pol <;> exact talked_returning (talked_exchanged ..) _
  · exact talked_returning (talked_exchanged ..) _
  · cases pol <;> exact talked_returning (talked_exchanged ..) _
  · exact talked_returning (talked_exchanged ..) _
  · obtain ⟨a, hx, hl⟩ := xferRead_cases n pol s
    refine ⟨_, rfl, ?_⟩
    rw [hx]
    cases a with
    | none => exact .inl ⟨rfl, rfl, rfl⟩
    | some bs => exact .inr ⟨bs, hl bs rfl, rfl, rfl⟩
  · obtain ⟨a, hx, hl⟩ := xferReadWrite_cases out pol s
    refine ⟨_, rfl, ?_⟩
    rw [hx]
    cases a with
    | none => exact .inl ⟨rfl, rfl, rfl⟩
    | some bs => exact .inr ⟨bs, hl bs rfl, rfl, rfl⟩

/-- Settles O14: an answered clock selection records the rate, or unknown. -/
theorem clockFollowsItsAnswer : Obligations.ClockFollowsItsAnswer := by
  intro s rate bs rest
  refine ⟨fun he => ⟨(State.clocked rate true rest s).returning .ok, ?_, rfl⟩,
    fun he => ⟨(State.clocked rate false rest s).returning .xferFail, ?_, rfl⟩⟩
  · rw [exec, execXferSetClock, xferSetClock_ok he]; rfl
  · rw [exec, execXferSetClock, xferSetClock_fail he]; rfl

/-- Settles O21: both are the write of one 0xFF byte with chip-select deasserted after it. -/
theorem releaseAndCleanupDeassert : Obligations.ReleaseAndCleanupDeassert := by
  intro s rest he
  refine ⟨⟨_, runAlone_ok (release_ok he), rfl, talked_returning (talked_exchanged ..) _⟩,
    ⟨(State.exchanged .deassert true releaseEvent rest s).returning .ok, ?_, rfl, talked_returning (talked_exchanged ..) _⟩⟩
  rw [exec, execCleanup, xferWrite_ok he]; rfl

end Sys2Proof.Proofs
end

section
/-! The polls, the command transaction and the data blocks, however the environment answers them (R140 to R144, R179,
R181, R183, R231; O15 to O20). -/

namespace Sys2Proof.Proofs

open Sys2Proof.Machine Sys2Proof.Laws

/-! ### A read of a poll loop -/

/-- One read of a poll loop, counted. -/
theorem pollRead {s : State} {b : Byte} {rest : List Answer} (he : s.env = .ok [b] :: rest) :
    ∃ u, Talked s u [byteRead b] rest s.cs ∧ ∀ {α : Type} (f : Byte → Op α),
      (readByteOrAbort .none >>= fun b => update (fun s => { s with polls := s.polls + 1 }) >>= fun _ => f b) s = f b u :=
  ⟨_, talked_polls (talked_exchanged .none true (byteRead b) rest s) (s.polls + 1),
    fun f => by rw [op_bind_ok (readByteOrAbort_ok he), op_bind_ok (op_update _ _)]; rfl⟩

/-- A read that fails. -/
theorem readByteOrAbort_failed {s : State} {rest : List Answer} (he : s.env = .fail :: rest) :
    ∃ t, readByteOrAbort .none s = .error (.abort .transport) t ∧ Talked s t [readFailed 1] rest .unknown :=
  ⟨_, readByteOrAbort_fail he, talked_exchanged ..⟩

/-- Idle reads of a poll loop, one after the other. -/
theorem idleReads_append (m : Nat) : idleReads (m + 1) = [byteRead 0xFF] ++ idleReads m := rfl

/-- The response poll reads on while the bus is idle. -/
theorem pollResponseLoop_idle {m n : Nat} {s : State} {more : List Answer} (he : s.env = idleAnswers m ++ more) :
    ∃ u, pollResponseLoop (m + n) s = pollResponseLoop n u ∧ Talked s u (idleReads m) more s.cs := by
  induction m generalizing s with
  | zero => exact ⟨s, by rw [Nat.zero_add], by simpa [he, idleAnswers, idleReads] using Talked.nothing s⟩
  | succ m ih =>
    obtain ⟨u, hu, hread⟩ := pollRead (b := 0xFF) (rest := idleAnswers m ++ more) he
    obtain ⟨v, hv, htalk⟩ := ih hu.env
    refine ⟨v, ?_, ?_⟩
    · rw [Nat.succ_add, pollResponseLoop, hread, if_pos rfl, hv]
    · rw [idleReads_append]; exact hu.cs ▸ hu.trans htalk

/-- The token poll reads on while the bus is idle. -/
theorem pollTokenLoop_idle {m n : Nat} {s : State} {more : List Answer} (he : s.env = idleAnswers m ++ more) :
    ∃ u, pollTokenLoop (m + n) s = pollTokenLoop n u ∧ Talked s u (idleReads m) more s.cs := by
  induction m generalizing s with
  | zero => exact ⟨s, by rw [Nat.zero_add], by simpa [he, idleAnswers, idleReads] using Talked.nothing s⟩
  | succ m ih =>
    obtain ⟨u, hu, hread⟩ := pollRead (b := 0xFF) (rest := idleAnswers m ++ more) he
    obtain ⟨v, hv, htalk⟩ := ih hu.env
    refine ⟨v, ?_, ?_⟩
    · rw [Nat.succ_add, pollTokenLoop, hread, if_neg (by decide), if_pos rfl, hv]
    · rw [idleReads_append]; exact hu.cs ▸ hu.trans htalk

/-- The busy wait reads on while the card is busy. -/
theorem busyWaitLoop_busy {busy : List Byte} {n : Nat} {s : State} {more : List Answer} (hne : ∀ b ∈ busy, b ≠ 0xFF)
    (he : s.env = busy.map (fun b => .ok [b]) ++ more) :
    ∃ u, busyWaitLoop (busy.length + n) s = busyWaitLoop n u ∧ Talked s u (busy.map byteRead) more s.cs := by
  induction busy generalizing s with
  | nil => exact ⟨s, by rw [List.length_nil, Nat.zero_add], by simpa [he] using Talked.nothing s⟩
  | cons b bs ih =>
    obtain ⟨u, hu, hread⟩ := pollRead (b := b) (rest := bs.map (fun b => .ok [b]) ++ more) he
    obtain ⟨v, hv, htalk⟩ := ih (fun c hc => hne c (List.mem_cons_of_mem _ hc)) hu.env
    refine ⟨v, ?_, hu.cs ▸ hu.trans htalk⟩
    rw [List.length_cons, Nat.succ_add, busyWaitLoop, hread, if_neg (hne b List.mem_cons_self), hv]

/-! ### How a poll ends -/

section polls
variable {s : State}

theorem pollResponse_of_error {e : Stop} {t : State}
    (h : pollResponseLoop s.params.nResp { s with polls := 0 } = .error e t) : pollResponse s = .error e t := by
  unfold pollResponse
  rw [op_bind_ok (op_update _ _), op_bind_ok (op_get _), op_bind_error h]

theorem pollToken_of_error {e : Stop} {t : State}
    (h : pollTokenLoop s.params.nToken { s with polls := 0 } = .error e t) : pollToken s = .error e t := by
  unfold pollToken
  rw [op_bind_ok (op_update _ _), op_bind_ok (op_get _), op_bind_error h]

theorem busyWait_of_error {e : Stop} {t : State}
    (h : busyWaitLoop s.params.nBusy { s with polls := 0 } = .error e t) : busyWait s = .error e t := by
  unfold busyWait
  rw [op_bind_ok (op_update _ _), op_bind_ok (op_get _), op_bind_error h]

theorem talked_zeroPolls (s : State) : Talked s { s with polls := 0 } [] s.env s.cs := talked_polls (Talked.nothing s) 0

/-- R231: a read that fails inside the response poll. -/
theorem pollResponse_fail {m : Nat} {rest : List Answer} (hm : m < s.params.nResp)
    (he : s.env = idleAnswers m ++ .fail :: rest) :
    ∃ t, pollResponse s = .error (.abort .transport) t ∧ Talked s t (idleReads m ++ [readFailed 1]) rest .unknown := by
  obtain ⟨n, hn⟩ : ∃ n, s.params.nResp = m + (n + 1) := ⟨s.params.nResp - m - 1, by omega⟩
  obtain ⟨u, hu, htalk⟩ := pollResponseLoop_idle (s := { s with polls := 0 }) (n := n + 1) he
  obtain ⟨v, hv, hfail⟩ := readByteOrAbort_failed htalk.env
  refine ⟨v, pollResponse_of_error ?_, (talked_zeroPolls s).trans (htalk.trans hfail)⟩
  rw [hn, hu, pollResponseLoop, op_bind_error hv]

/-- R231: a read that fails inside the token poll. -/
theorem pollToken_fail {m : Nat} {rest : List Answer} (hm : m < s.params.nToken)
    (he : s.env = idleAnswers m ++ .fail :: rest) :
    ∃ t, pollToken s = .error (.abort .transport) t ∧ Talked s t (idleReads m ++ [readFailed 1]) rest .unknown := by
  obtain ⟨n, hn⟩ : ∃ n, s.params.nToken = m + (n + 1) := ⟨s.params.nToken - m - 1, by omega⟩
  obtain ⟨u, hu, htalk⟩ := pollTokenLoop_idle (s := { s with polls := 0 }) (n := n + 1) he
  obtain ⟨v, hv, hfail⟩ := readByteOrAbort_failed htalk.env
  refine ⟨v, pollToken_of_error ?_, (talked_zeroPolls s).trans (htalk.trans hfail)⟩
  rw [hn, hu, pollTokenLoop, op_bind_error hv]

/-- R143: a byte that is neither the token nor idle. -/
theorem pollToken_wrong {m : Nat} {b : Byte} {rest : List Answer} (hm : m < s.params.nToken) (hb : b ≠ 0xFE)
    (hb' : b ≠ 0xFF) (he : s.env = idleAnswers m ++ .ok [b] :: rest) :
    ∃ t, pollToken s = .error (.abort .badToken) t ∧ Talked s t (idleReads m ++ [byteRead b]) rest s.cs := by
  obtain ⟨n, hn⟩ : ∃ n, s.params.nToken = m + (n + 1) := ⟨s.params.nToken - m - 1, by omega⟩
  obtain ⟨u, hu, htalk⟩ := pollTokenLoop_idle (s := { s with polls := 0 }) (n := n + 1) he
  obtain ⟨v, hv, hread⟩ := pollRead (s := u) htalk.env
  refine ⟨v, pollToken_of_error ?_, (talked_zeroPolls s).trans (htalk.trans (htalk.cs ▸ hv))⟩
  rw [hn, hu, pollTokenLoop, hread, if_neg hb, if_neg hb']
  rfl

/-- R143: no token in the whole budget. -/
theorem pollToken_silent {rest : List Answer} (he : s.env = idleAnswers s.params.nToken ++ rest) :
    ∃ t, pollToken s = .error (.abort .tokenTimeout) t ∧ Talked s t (idleReads s.params.nToken) rest s.cs := by
  obtain ⟨u, hu, htalk⟩ := pollTokenLoop_idle (s := { s with polls := 0 }) (n := 0) he
  exact ⟨u, pollToken_of_error hu, (talked_zeroPolls s).trans htalk⟩

/-- R231: a read that fails inside the busy wait. -/
theorem busyWait_fail {busy : List Byte} {rest : List Answer} (hlen : busy.length < s.params.nBusy)
    (hne : ∀ b ∈ busy, b ≠ 0xFF) (he : s.env = busy.map (fun b => .ok [b]) ++ .fail :: rest) :
    ∃ t, busyWait s = .error (.abort .transport) t ∧
      Talked s t (busy.map byteRead ++ [readFailed 1]) rest .unknown := by
  obtain ⟨n, hn⟩ : ∃ n, s.params.nBusy = busy.length + (n + 1) := ⟨s.params.nBusy - busy.length - 1, by omega⟩
  obtain ⟨u, hu, htalk⟩ := busyWaitLoop_busy (s := { s with polls := 0 }) (n := n + 1) hne he
  obtain ⟨v, hv, hfail⟩ := readByteOrAbort_failed htalk.env
  refine ⟨v, busyWait_of_error ?_, (talked_zeroPolls s).trans (htalk.trans hfail)⟩
  rw [hn, hu, busyWaitLoop, op_bind_error hv]

/-- R144: the card busy for the whole budget. -/
theorem busyWait_timeout {busy : List Byte} {rest : List Answer} (hlen : busy.length = s.params.nBusy)
    (hne : ∀ b ∈ busy, b ≠ 0xFF) (he : s.env = busy.map (fun b => .ok [b]) ++ rest) :
    ∃ t, busyWait s = .error (.abort .busyTimeout) t ∧ Talked s t (busy.map byteRead) rest s.cs := by
  obtain ⟨u, hu, htalk⟩ := busyWaitLoop_busy (s := { s with polls := 0 }) (n := 0) hne he
  exact ⟨u, busyWait_of_error (hlen ▸ hu), (talked_zeroPolls s).trans htalk⟩

end polls

/-! ### An operation that goes on, run alone -/

/-- An operation run alone that goes on after these calls. -/
theorem runAlone_talked {α : Type} {op : Op α} {ret : α → Result} {s t : State} {a : α} {es : List Event}
    {rest : List Answer} {cs : ChipSelect} (ho : op s = .ok a t) (h : Talked s t es rest cs) :
    ∃ u, runAlone op ret s = .next u ∧ u.result = ret a ∧ Talked s u es rest cs :=
  ⟨_, runAlone_ok ho, rfl, talked_returning h _⟩

/-- Settles O15: the poll's own law, run alone. -/
theorem responsePollReturnsTheReply : Obligations.ResponsePollReturnsTheReply := by
  intro s r rest he hr
  obtain ⟨t, ht, htalk⟩ := pollResponse_reply he hr
  exact runAlone_talked ht htalk

/-- Settles O16: the token poll's three endings, each run alone. -/
theorem tokenPollClassifiesEveryByte : Obligations.TokenPollClassifiesEveryByte := by
  intro s m b ok rest
  refine ⟨fun hm he => ?_, fun hm hb hb' he => ?_, fun he => ?_⟩
  · obtain ⟨t, ht, htalk⟩ := pollToken_found he hm
    exact runAlone_talked ht htalk
  · obtain ⟨t, ht, htalk⟩ := pollToken_wrong hm hb hb' he
    exact runAlone_aborted ht htalk
  · obtain ⟨t, ht, htalk⟩ := pollToken_silent he
    exact runAlone_aborted ht htalk

/-- Settles O17: the busy wait's two endings, each run alone. -/
theorem busyWaitEndsOnIdle : Obligations.BusyWaitEndsOnIdle := by
  intro s busy ok rest
  refine ⟨fun hb he => ?_, fun hlen hne he => ?_⟩
  · obtain ⟨t, ht, htalk⟩ := busyWait_found he hb
    exact runAlone_talked ht htalk
  · obtain ⟨t, ht, htalk⟩ := busyWait_timeout hlen hne he
    exact runAlone_aborted ht htalk

/-- Settles O18: the transaction's own law, run alone. -/
theorem sendCmdReturnsTheReply : Obligations.SendCmdReturnsTheReply := by
  intro s index arg r rest hframing hindex hr he
  obtain ⟨t, ht, htalk⟩ := sendCmd_r1 hframing hindex he hr
  exact runAlone_talked ht htalk

/-- Four bytes are the bytes of the word they are concatenated to (R56). -/
theorem wordBytes_append (b1 b2 b3 b4 : Byte) : wordBytes (b1 ++ b2 ++ b3 ++ b4) = [b1, b2, b3, b4] := by
  rw [← be32_eq_append, wordBytes_be32]

/-- Settles O19: the four bytes are one read, of the word they are concatenated to. -/
theorem trailingBytesAreReadInOneCall : Obligations.TrailingBytesAreReadInOneCall := by
  intro s index arg m b b1 b2 b3 b4 rest hframing hindex
  refine ⟨fun hm hb he => ?_, fun he => ?_⟩
  · rw [← wordBytes_append] at he ⊢
    obtain ⟨t, ht, htalk⟩ := sendCmd_r5 (arg := arg) (w := b1 ++ b2 ++ b3 ++ b4) hframing hindex
      (by simpa [wideAnswers, wordAnswer] using he) hm hb
    exact runAlone_talked ht htalk
  · obtain ⟨t, ht, htalk⟩ := sendCmd_r5_silent (arg := arg) hframing hindex he
    exact runAlone_talked ht htalk

/-! ### A failed transport call -/

theorem writeOrAbort_failed {bytes : List Byte} {pol : Policy} {s : State} {rest : List Answer}
    (he : s.env = .fail :: rest) :
    ∃ t, writeOrAbort bytes pol s = .error (.abort .transport) t ∧ Talked s t [.write bytes pol false] rest .unknown :=
  ⟨_, writeOrAbort_fail he, talked_exchanged ..⟩

theorem readOrAbort_failed {n : Nat} {s : State} {rest : List Answer} (he : s.env = .fail :: rest) :
    ∃ t, readOrAbort n .none s = .error (.abort .transport) t ∧ Talked s t [readFailed n] rest .unknown :=
  ⟨_, readOrAbort_fail he, talked_exchanged ..⟩

theorem writeOrAbort_talked {bytes : List Byte} {s : State} {rest : List Answer} (he : s.env = okAnswer :: rest) :
    ∃ t, writeOrAbort bytes .none s = .ok () t ∧ Talked s t [wrote bytes] rest s.cs :=
  ⟨_, writeOrAbort_ok he, talked_exchanged .none true (wrote bytes) rest s⟩

/-- The frame's write fails (R140). -/
theorem sendCmd_frame_fail {index : Nat} {arg : Word} {shape : Shape} {s : State} {rest : List Answer} (hf : s.framing)
    (hi : index ≤ 63) (he : s.env = .fail :: rest) :
    ∃ t, sendCmd index arg shape s = .error (.abort .transport) t ∧
      Talked s t [.write (frameWith builtTable index arg) .assert false] rest .unknown := by
  obtain ⟨t, ht, htalk⟩ := writeOrAbort_failed (bytes := frameWith builtTable index arg) (pol := .assert) he
  exact ⟨t, by rw [sendCmd, op_bind_ok (assemble_eq hf hi arg)]; exact op_bind_error ht, htalk⟩

/-- The read of the trailing bytes fails (R142). -/
theorem sendCmd_trailing_fail {index : Nat} {arg : Word} {m : Nat} {b : Byte} {s : State} {rest : List Answer}
    (hf : s.framing) (hi : index ≤ 63) (hm : m < s.params.nResp) (hb : b ≠ 0xFF)
    (he : s.env = okAnswer :: (idleAnswers m ++ .ok [b] :: .fail :: rest)) :
    ∃ t, sendCmd index arg .r5 s = .error (.abort .transport) t ∧
      Talked s t (frameEvent index arg :: (idleReads m ++ [byteRead b, readFailed 4])) rest .unknown := by
  obtain ⟨u, hu, h1⟩ := writeFrame (index := index) (arg := arg) he
  obtain ⟨v, hv, h2⟩ := pollResponse_reply (r := .after m b) (s := u) (rest := .fail :: rest)
    (by simpa [CardReply.answers] using h1.env) (by simpa [CardReply.fits, h1.same.params, hm] using hb)
  obtain ⟨t, ht, h3⟩ := readOrAbort_failed (n := 4) h2.env
  refine ⟨t, ?_, ?_⟩
  · rw [sendCmd, op_bind_ok (assemble_eq hf hi arg), op_bind_ok hu, receiveReply, op_bind_ok hv]
    exact op_bind_error ht
  · simpa [CardReply.events] using h1.trans (h2.trans h3)

/-- The payload read of a block fails (R179). -/
theorem receiveBlock_payload_fail {m : Nat} {buf : Buffer} {off : Nat} {s : State} {rest : List Answer}
    (hm : m < s.params.nToken) (he : s.env = idleAnswers m ++ .ok [0xFE] :: .fail :: rest) :
    ∃ t, receiveBlock buf off s = .error (.abort .transport) t ∧
      Talked s t (idleReads m ++ [byteRead 0xFE, readFailed 512]) rest .unknown := by
  obtain ⟨u, hu, h1⟩ := pollToken_found he hm
  obtain ⟨t, ht, h2⟩ := readOrAbort_failed (n := Config.sectorSize) h1.env
  refine ⟨t, ?_, by simpa [Config.sectorSize] using h1.trans h2⟩
  rw [receiveBlock, op_bind_ok hu, op_bind_error ht]

/-- What a stored payload leaves of the caller's memory (R179). -/
theorem received_writeBytes {s t : State} {buf : Buffer} {off : Nat} {payload : List Byte} (hwf : s.mem.wf = true)
    (hmem : t.mem = s.mem.writeBytes (buf.base + off) payload) : Received s t buf off payload := by
  refine ⟨fun i hi => ?_, fun a ha => ?_⟩
  · rw [hmem]; exact read_writeBytes_same hwf _ _ i hi
  · rw [hmem]; exact read_writeBytes_other _ _ (by omega)

/-- The calls made are told the same way when the same payload is stored before and after them. -/
theorem talked_memWrite {s t : State} {es : List Event} {rest : List Answer} {cs : ChipSelect} (h : Talked s t es rest cs)
    (buf : Buffer) (off : Nat) (d : List Byte) : Talked (s.memWrite buf off d) (t.memWrite buf off d) es rest cs :=
  ⟨h.trace, h.env, h.cs, { h.same with mem := congrArg (·.writeBytes (buf.base + off) d) h.same.mem }⟩

/-- A state whose memory is that of a store of the payload is the state after the store. -/
theorem with_mem_eq_memWrite {s t : State} {buf : Buffer} {off : Nat} {d : List Byte}
    (h : t.mem = (s.memWrite buf off d).mem) : ({ s with mem := t.mem } : State) = s.memWrite buf off d := by
  rw [h]; rfl

/-- The read of a block's CRC fails, its payload stored (R179). -/
theorem receiveBlock_crc_fail {m : Nat} {payload : List Byte} {buf : Buffer} {off : Nat} {s : State} {rest : List Answer}
    (hm : m < s.params.nToken) (hl : payload.length = 512)
    (he : s.env = idleAnswers m ++ .ok [0xFE] :: .ok payload :: .fail :: rest) :
    ∃ t, receiveBlock buf off s = .error (.abort .transport) t ∧
      Talked (s.memWrite buf off payload) t
        (idleReads m ++ [byteRead 0xFE, .read 512 .none (some payload), readFailed 2]) rest .unknown := by
  obtain ⟨u, hu, h1⟩ := pollToken_found he hm
  have hr := readOrAbort_ok (n := Config.sectorSize) (pol := .none) h1.env hl
  obtain ⟨t, ht, h2⟩ := readOrAbort_failed (n := 2) (s := State.memWrite buf off payload
    (State.exchanged .none true (.read Config.sectorSize .none (some payload)) (.fail :: rest) u)) rfl
  refine ⟨t, ?_, ?_⟩
  · rw [receiveBlock, op_bind_ok hu, op_bind_ok hr, op_bind_ok (op_update _ _), op_bind_error ht]
  · have h3 := talked_memWrite (h1.trans (talked_exchanged .none true (.read 512 .none (some payload)) (.fail :: rest) u))
      buf off payload
    simpa using h3.trans h2

/-- The token's write fails (R183). -/
theorem sendBlock_token_fail {token : BlockToken} {buf : Buffer} {off : Nat} {s : State} {rest : List Answer}
    (he : s.env = .fail :: rest) :
    ∃ t, sendBlock token buf off s = .error (.abort .transport) t ∧
      Talked s t [writeFailed [tokenByte token]] rest .unknown := by
  obtain ⟨t, ht, htalk⟩ := writeOrAbort_failed (bytes := [tokenByte token]) (pol := .none) he
  exact ⟨t, op_bind_error ht, htalk⟩

/-- The payload's write fails (R183). -/
theorem sendBlock_payload_fail {token : BlockToken} {buf : Buffer} {off : Nat} {s : State} {rest : List Answer}
    (he : s.env = okAnswer :: .fail :: rest) :
    ∃ t, sendBlock token buf off s = .error (.abort .transport) t ∧
      Talked s t [wrote [tokenByte token], writeFailed (s.memRead buf off 512)] rest .unknown := by
  obtain ⟨u, hu, h1⟩ := writeOrAbort_talked (bytes := [tokenByte token]) he
  obtain ⟨t, ht, h2⟩ := writeOrAbort_failed (bytes := u.memRead buf off Config.sectorSize) (pol := .none) h1.env
  have hmem : u.memRead buf off Config.sectorSize = s.memRead buf off 512 := by
    rw [State.memRead, h1.same.mem]; rfl
  refine ⟨t, ?_, by simpa [hmem, writeFailed] using h1.trans h2⟩
  rw [sendBlock, op_bind_ok hu, op_bind_ok (op_get _), op_bind_error ht]

/-- The filler's write fails (R183). -/
theorem sendBlock_filler_fail {token : BlockToken} {buf : Buffer} {off : Nat} {s : State} {rest : List Answer}
    (he : s.env = okAnswer :: okAnswer :: .fail :: rest) :
    ∃ t, sendBlock token buf off s = .error (.abort .transport) t ∧
      Talked s t [wrote [tokenByte token], wrote (s.memRead buf off 512), writeFailed [0xFF, 0xFF]] rest .unknown := by
  obtain ⟨u, hu, h1⟩ := writeOrAbort_talked (bytes := [tokenByte token]) he
  obtain ⟨v, hv, h2⟩ := writeOrAbort_talked (bytes := u.memRead buf off Config.sectorSize) h1.env
  obtain ⟨t, ht, h3⟩ := writeOrAbort_failed (bytes := [0xFF, 0xFF]) (pol := .none) h2.env
  have hmem : u.memRead buf off Config.sectorSize = s.memRead buf off 512 := by
    rw [State.memRead, h1.same.mem]; rfl
  refine ⟨t, ?_, by simpa [hmem, writeFailed] using h1.trans (h2.trans h3)⟩
  rw [sendBlock, op_bind_ok hu, op_bind_ok (op_get _), op_bind_ok hv, ht]

/-- R55: an operation over a buffer that is long enough is the operation. -/
theorem runWithBuffer_fits {α : Type} {fits : Bool} (h : fits = true) (op : Op α) (ret : α → Result) (s : State) :
    runWithBuffer fits op ret s = runAlone op ret s := if_pos h

/-- The 0xFC token is one write (R187). -/
theorem execTokenStartMultiWrite_eq (s : State) :
    exec .tokenStartMultiWrite s = runAlone (writeOrAbort [0xFC] .none) (fun _ => .done) s := by
  obtain ⟨ok, h⟩ := xferWrite_cases [0xFC] .none s
  rw [exec, execTokenStartMultiWrite, runAlone, writeOrAbort, h]
  cases ok <;> rfl

/-- Settles O20: each operation stops at its failed call, and the abort path makes the cleanup call. -/
theorem transportFailureAborts : Obligations.TransportFailureAborts := by
  intro s index arg shape m b busy payload token buf off ok rest
  refine ⟨fun hf hi he => ?_, fun hm he => ?_, fun hf hi hm hb he => ?_, fun he => ?_, fun hm he => ?_,
    fun hlen hne he => ?_, fun hbuf hm he => ?_, fun hbuf hm hwf hl he => ?_, fun hbuf he => ?_, fun hbuf he => ?_,
    fun hbuf he => ?_, fun he => ⟨?_, ?_, ?_⟩⟩
  · obtain ⟨t, ht, htalk⟩ := sendCmd_frame_fail (arg := arg) (shape := shape) hf hi he
    exact runAlone_aborted ht htalk
  · obtain ⟨t, ht, htalk⟩ := pollResponse_fail hm he
    exact runAlone_aborted ht htalk
  · obtain ⟨t, ht, htalk⟩ := sendCmd_trailing_fail (arg := arg) hf hi hm hb he
    exact runAlone_aborted ht htalk
  · obtain ⟨t, ht, htalk⟩ := writeOrAbort_failed (bytes := [0xFF]) (pol := .deassert) he
    exact runAlone_aborted ht htalk
  · obtain ⟨t, ht, htalk⟩ := pollToken_fail hm he
    exact runAlone_aborted ht htalk
  · obtain ⟨t, ht, htalk⟩ := busyWait_fail hlen hne he
    exact runAlone_aborted ht htalk
  · obtain ⟨t, ht, htalk⟩ := receiveBlock_payload_fail (buf := buf) (off := off) hm he
    rw [exec, execReceiveBlock, runWithBuffer_fits hbuf]
    exact runAlone_aborted ht htalk
  · obtain ⟨t, ht, htalk⟩ := receiveBlock_crc_fail (buf := buf) (off := off) hm hl he
    rw [exec, execReceiveBlock, runWithBuffer_fits hbuf]
    have hab := aborted_after (c := .transport) htalk
    refine ⟨_, runAlone_abort ht, received_writeBytes hwf hab.mem, ?_⟩
    rw [with_mem_eq_memWrite hab.mem]
    exact hab
  · obtain ⟨t, ht, htalk⟩ := sendBlock_token_fail (token := token) (buf := buf) (off := off) he
    rw [exec, execSendBlock, runWithBuffer_fits hbuf]
    exact runAlone_aborted ht htalk
  · obtain ⟨t, ht, htalk⟩ := sendBlock_payload_fail (token := token) (buf := buf) (off := off) he
    rw [exec, execSendBlock, runWithBuffer_fits hbuf]
    exact runAlone_aborted ht htalk
  · obtain ⟨t, ht, htalk⟩ := sendBlock_filler_fail (token := token) (buf := buf) (off := off) he
    rw [exec, execSendBlock, runWithBuffer_fits hbuf]
    exact runAlone_aborted ht htalk
  · obtain ⟨t, ht, htalk⟩ := readByteOrAbort_failed he
    exact runAlone_aborted (op_bind_error ht) htalk
  · obtain ⟨t, ht, htalk⟩ := writeOrAbort_failed (bytes := [0xFC]) (pol := .none) he
    rw [execTokenStartMultiWrite_eq]
    exact runAlone_aborted ht htalk
  · obtain ⟨t, ht, htalk⟩ := writeOrAbort_failed (bytes := [0xFD]) (pol := .none) he
    exact runAlone_aborted (op_bind_error ht) htalk

end Sys2Proof.Proofs
end

section
/-! Chains of transport calls told by their events (R140, R145), and the frames as operations (R153 to R158, R173 to R186;
O22 to O26). -/

namespace Sys2Proof.Proofs

open Sys2Proof.Machine Sys2Proof.Laws

/-! ### Chains -/

/-- The operation goes on with this value after these calls. -/
def Does {α : Type} (op : Op α) (s : State) (a : α) (es : List Event) (rest : List Answer) (cs : ChipSelect) : Prop :=
  ∃ t, op s = .ok a t ∧ Talked s t es rest cs

/-- The operation aborts with this cause after these calls. -/
def Stops {α : Type} (op : Op α) (s : State) (c : AbortCause) (es : List Event) (rest : List Answer) (cs : ChipSelect) :
    Prop := ∃ t, op s = .error (.abort c) t ∧ Talked s t es rest cs

section chains
variable {α β : Type} {x : Op α} {f : α → Op β} {s : State} {a : α} {b : β} {c : AbortCause} {es fs : List Event}
  {rest q : List Answer} {cs d : ChipSelect}

theorem Does.bind (h : Does x s a es rest cs) (k : ∀ t, Talked s t es rest cs → Does (f a) t b fs q d) :
    Does (x >>= f) s b (es ++ fs) q d := by
  obtain ⟨t, ht, htalk⟩ := h
  obtain ⟨u, hu, htalk'⟩ := k t htalk
  exact ⟨u, (op_bind_ok ht).trans hu, htalk.trans htalk'⟩

theorem Does.bind_stops (h : Does x s a es rest cs) (k : ∀ t, Talked s t es rest cs → Stops (f a) t c fs q d) :
    Stops (x >>= f) s c (es ++ fs) q d := by
  obtain ⟨t, ht, htalk⟩ := h
  obtain ⟨u, hu, htalk'⟩ := k t htalk
  exact ⟨u, (op_bind_ok ht).trans hu, htalk.trans htalk'⟩

theorem Stops.bind (h : Stops x s c es rest cs) : Stops (x >>= f) s c es rest cs :=
  let ⟨t, ht, htalk⟩ := h
  ⟨t, op_bind_error ht, htalk⟩

/-- A value returned at the end makes no call. -/
theorem Does.bind_pure (h : Does x s a es rest cs) (g : α → β) : Does (x >>= fun a => pure (g a)) s (g a) es rest cs :=
  let ⟨t, ht, htalk⟩ := h
  ⟨t, op_bind_ok ht, htalk⟩

theorem Does.runAlone (h : Does x s a es rest cs) (ret : α → Result) :
    ∃ t, runAlone x ret s = .next t ∧ t.result = ret a ∧ Talked s t es rest cs :=
  let ⟨_, ht, htalk⟩ := h
  runAlone_talked ht htalk

theorem Stops.runAlone {ok : Bool} (h : Stops x s c es (cleanupAnswer ok :: rest) cs) (ret : α → Result) :
    ∃ t, runAlone x ret s = .next t ∧ AbortedWith s t c es ok rest :=
  let ⟨_, ht, htalk⟩ := h
  runAlone_aborted ht htalk

end chains

/-! ### A transaction and its check -/

section transactions
variable {tx : Tx} {arg : Word} {s : State} {rest : List Answer} (hf : s.framing)
include hf

theorem transact_r1_does {r : CardReply} (hshape : tx.shape = .r1) (hr : r.fits s.params.nResp = true)
    (he : s.env = txAnswers s.params r ++ rest) (hc : tx.check r.resp none = none) :
    Does (transact tx arg) s ⟨r.resp, none⟩ (txEvents s.params tx.index arg r) rest .asserted := by
  obtain ⟨t, ht, htalk⟩ := sendCmd_r1 (arg := arg) hf (tx_index_le tx) he hr
  exact ⟨t, transact_pass (hshape ▸ ht) hc, htalk⟩

theorem transact_r1_stops {r : CardReply} {c : AbortCause} (hshape : tx.shape = .r1) (hr : r.fits s.params.nResp = true)
    (he : s.env = txAnswers s.params r ++ rest) (hc : tx.check r.resp none = some c) :
    Stops (transact tx arg) s c (txEvents s.params tx.index arg r) rest .asserted := by
  obtain ⟨t, ht, htalk⟩ := sendCmd_r1 (arg := arg) hf (tx_index_le tx) he hr
  exact ⟨t, transact_fail (hshape ▸ ht) hc, htalk⟩

theorem transact_r5_does {m : Nat} {b : Byte} {w : Word} (hshape : tx.shape = .r5) (hm : m < s.params.nResp)
    (hb : b ≠ 0xFF) (he : s.env = wideAnswers m b w ++ rest) (hc : tx.check (.byte b) (some w) = none) :
    Does (transact tx arg) s ⟨.byte b, some w⟩ (wideEvents tx.index arg m b w) rest .asserted := by
  obtain ⟨t, ht, htalk⟩ := sendCmd_r5 (arg := arg) hf (tx_index_le tx) he hm hb
  exact ⟨t, transact_pass (hshape ▸ ht) hc, htalk⟩

theorem transact_r5_stops {m : Nat} {b : Byte} {w : Word} {c : AbortCause} (hshape : tx.shape = .r5)
    (hm : m < s.params.nResp) (hb : b ≠ 0xFF) (he : s.env = wideAnswers m b w ++ rest)
    (hc : tx.check (.byte b) (some w) = some c) :
    Stops (transact tx arg) s c (wideEvents tx.index arg m b w) rest .asserted := by
  obtain ⟨t, ht, htalk⟩ := sendCmd_r5 (arg := arg) hf (tx_index_le tx) he hm hb
  exact ⟨t, transact_fail (hshape ▸ ht) hc, htalk⟩

theorem transact_r5_silent_stops {c : AbortCause} (hshape : tx.shape = .r5)
    (he : s.env = txAnswers s.params .silent ++ rest) (hc : tx.check .timeout none = some c) :
    Stops (transact tx arg) s c (txEvents s.params tx.index arg .silent) rest .asserted := by
  obtain ⟨t, ht, htalk⟩ := sendCmd_r5_silent (arg := arg) hf (tx_index_le tx) he
  exact ⟨t, transact_fail (hshape ▸ ht) hc, htalk⟩

end transactions

theorem fits_after {m n : Nat} {b : Byte} (hm : m < n) (hb : b ≠ 0xFF) : (CardReply.after m b).fits n = true := by
  simpa [CardReply.fits, hm] using hb

/-- R153: CMD0 requires the whole R1 byte 0x01. -/
theorem check_goIdle (b : Byte) (v : Option Word) :
    (Tx.init .goIdle).check (.byte b) v = if b = 0x01 then none else some .cmd0NotIdle := rfl

/-- R154: CMD8 requires the whole R1 byte 0x01, then the echo. -/
theorem check_ifCond_other {b : Byte} (hb : b ≠ 0x01) (v : Option Word) :
    (Tx.init .ifCond).check (.byte b) v = some .cmd8BadR1 := by
  simp only [Tx.check, requireR1, if_neg hb]

theorem check_ifCond_idle (w : Word) :
    (Tx.init .ifCond).check (.byte 0x01) (some w) = if w = 426 then none else some .cmd8BadEcho := rfl

/-- R155: the first CMD58 requires OCR bit 20 only. -/
theorem check_ocrVoltage (b : Byte) (w : Word) :
    (Tx.init .ocrVoltage).check (.byte b) (some w) = if w.getLsbD 20 then none else some .ocrNo3v3 := rfl

/-- R158: the second CMD58 requires OCR bit 31 only. -/
theorem check_ocrPower (b : Byte) (w : Word) :
    (Tx.init .ocrPower).check (.byte b) (some w) = if w.getLsbD 31 then none else some .ocrNotPowered := rfl

/-- R156: in the loop of step 5 only 0x04 aborts. -/
theorem check_appOpCond (r : Resp) (v : Option Word) :
    (Tx.init .appOpCond).check r v = if r = .byte 0x04 then some .appCmdIllegal else none := rfl

/-- The release after a transaction (R145). -/
theorem release_does {s : State} {rest : List Answer} (he : s.env = okAnswer :: rest) :
    Does release s () [releaseEvent] rest .deasserted := release_talked he

/-! ### The frames of initialization -/

section frames
variable {s : State} {m : Nat} {b : Byte} {w : Word} {rest : List Answer} (hf : s.framing) (hm : m < s.params.nResp)
include hf hm

theorem initStep2_does (he : s.env = txAnswers s.params (.after m 0x01) ++ okAnswer :: rest) :
    Does initStep2 s () (txEvents s.params 0 0 (.after m 0x01) ++ [releaseEvent]) rest .deasserted :=
  (transact_r1_does (tx := .init .goIdle) hf rfl (fits_after hm (by decide)) he rfl).bind fun _ h => release_does h.env

theorem initStep3_does (he : s.env = wideAnswers m 0x01 426 ++ okAnswer :: rest) :
    Does initStep3 s () (wideEvents 8 0x000001AA m 0x01 426 ++ [releaseEvent]) rest .deasserted :=
  (transact_r5_does (tx := .init .ifCond) hf rfl hm (by decide) he rfl).bind fun _ h => release_does h.env

theorem initStep4_does (hb : b ≠ 0xFF) (hw : w.getLsbD 20 = true)
    (he : s.env = wideAnswers m b w ++ okAnswer :: rest) :
    Does initStep4 s () (wideEvents 58 0 m b w ++ [releaseEvent]) rest .deasserted :=
  (transact_r5_does (tx := .init .ocrVoltage) hf rfl hm hb he (by rw [check_ocrVoltage, if_pos hw])).bind
    fun _ h => release_does h.env

/-- R158: the addressing mode is OCR bit 30, written before the release. -/
theorem initStep6_does (hb : b ≠ 0xFF) (hw : w.getLsbD 31 = true)
    (he : s.env = wideAnswers m b w ++ okAnswer :: rest) :
    ∃ t, initStep6 s = .ok () t ∧ Talked { s with isHc := some (w.getLsbD 30) } t
      (wideEvents 58 0 m b w ++ [releaseEvent]) rest .deasserted := by
  obtain ⟨u, hu, h1⟩ := transact_r5_does (tx := .init .ocrPower) (arg := 0) hf rfl hm hb he
    (by rw [check_ocrPower, if_pos hw])
  have h2 : Talked { s with isHc := some (w.getLsbD 30) } { u with isHc := some (w.getLsbD 30) } _ _ _ :=
    ⟨h1.trace, h1.env, h1.cs, { h1.same with isHc := rfl }⟩
  obtain ⟨t, ht, h3⟩ := release_does h2.env
  exact ⟨t, (op_bind_ok hu).trans ((op_bind_ok (op_update _ _)).trans ht), h2.trans h3⟩

theorem initStep2_stops (hb : b ≠ 0xFF) (hb' : b ≠ 0x01) (he : s.env = txAnswers s.params (.after m b) ++ rest) :
    Stops initStep2 s .cmd0NotIdle (txEvents s.params 0 0 (.after m b)) rest .asserted :=
  (transact_r1_stops (tx := .init .goIdle) hf rfl (fits_after hm hb) he ((check_goIdle b _).trans (if_neg hb'))).bind

theorem initStep3_badR1 (hb : b ≠ 0xFF) (hb' : b ≠ 0x01) (he : s.env = wideAnswers m b w ++ rest) :
    Stops initStep3 s .cmd8BadR1 (wideEvents 8 0x000001AA m b w) rest .asserted :=
  (transact_r5_stops (tx := .init .ifCond) hf rfl hm hb he (check_ifCond_other hb' _)).bind

theorem initStep3_badEcho (hw : w ≠ 426) (he : s.env = wideAnswers m 0x01 w ++ rest) :
    Stops initStep3 s .cmd8BadEcho (wideEvents 8 0x000001AA m 0x01 w) rest .asserted :=
  (transact_r5_stops (tx := .init .ifCond) hf rfl hm (by decide) he ((check_ifCond_idle w).trans (if_neg hw))).bind

theorem initStep4_stops (hb : b ≠ 0xFF) (hw : w.getLsbD 20 = false) (he : s.env = wideAnswers m b w ++ rest) :
    Stops initStep4 s .ocrNo3v3 (wideEvents 58 0 m b w) rest .asserted :=
  (transact_r5_stops (tx := .init .ocrVoltage) hf rfl hm hb he (by rw [check_ocrVoltage, hw]; rfl)).bind

theorem initStep6_stops (hb : b ≠ 0xFF) (hw : w.getLsbD 31 = false) (he : s.env = wideAnswers m b w ++ rest) :
    Stops initStep6 s .ocrNotPowered (wideEvents 58 0 m b w) rest .asserted :=
  (transact_r5_stops (tx := .init .ocrPower) hf rfl hm hb he (by rw [check_ocrPower, hw]; rfl)).bind

end frames

section replies
variable {s : State} {r : CardReply} {rest : List Answer} (hf : s.framing) (hr : r.fits s.params.nResp = true)
include hf hr

/-- R156: CMD55 in the loop of step 5 goes on whatever the reply is but 0x04. -/
theorem appOpCond_does (hr4 : r.resp ≠ .byte 0x04) (he : s.env = txAnswers s.params r ++ okAnswer :: rest) :
    Does appOpCond s ⟨r.resp, none⟩ (txEvents s.params 55 0 r ++ [releaseEvent]) rest .deasserted :=
  (transact_r1_does (tx := .init .appOpCond) hf rfl hr he ((check_appOpCond ..).trans (if_neg hr4))).bind
    fun _ h => (release_does h.env).bind_pure fun _ => _

theorem opCond_does (he : s.env = txAnswers s.params r ++ okAnswer :: rest) :
    Does opCond s ⟨r.resp, none⟩ (txEvents s.params 41 0x40000000 r ++ [releaseEvent]) rest .deasserted :=
  (transact_r1_does (tx := .init .opCond) hf rfl hr he rfl).bind fun _ h => (release_does h.env).bind_pure fun _ => _

/-- R185: the pre-erase goes on whatever the replies are. -/
theorem appErase_does (he : s.env = txAnswers s.params r ++ okAnswer :: rest) :
    Does appErase s ⟨r.resp, none⟩ (txEvents s.params 55 0 r ++ [releaseEvent]) rest .deasserted :=
  (transact_r1_does (tx := .io .appErase) hf rfl hr he rfl).bind fun _ h => (release_does h.env).bind_pure fun _ => _

theorem eraseCount_does (count : Word) (he : s.env = txAnswers s.params r ++ okAnswer :: rest) :
    Does (eraseCount count) s ⟨r.resp, none⟩ (txEvents s.params 23 count r ++ [releaseEvent]) rest .deasserted :=
  (transact_r1_does (tx := .io .eraseCount) hf rfl hr he rfl).bind fun _ h => (release_does h.env).bind_pure fun _ => _

/-- R156: 0x04 aborts. -/
theorem appOpCond_stops (hr4 : r.resp = .byte 0x04) (he : s.env = txAnswers s.params r ++ rest) :
    Stops appOpCond s .appCmdIllegal (txEvents s.params 55 0 r) rest .asserted :=
  (transact_r1_stops (tx := .init .appOpCond) hf rfl hr he ((check_appOpCond ..).trans (if_pos hr4))).bind

end replies

/-- R75: silence aborts CMD0. -/
theorem initStep2_silent {s : State} {rest : List Answer} (hf : s.framing)
    (he : s.env = txAnswers s.params .silent ++ rest) :
    Stops initStep2 s .respTimeout (txEvents s.params 0 0 .silent) rest .asserted :=
  (transact_r1_stops (tx := .init .goIdle) (r := .silent) hf rfl rfl he rfl).bind

theorem initStep3_silent {s : State} {rest : List Answer} (hf : s.framing)
    (he : s.env = txAnswers s.params .silent ++ rest) :
    Stops initStep3 s .respTimeout (txEvents s.params 8 0x000001AA .silent) rest .asserted :=
  (transact_r5_silent_stops (tx := .init .ifCond) hf rfl he rfl).bind

theorem initStep4_silent {s : State} {rest : List Answer} (hf : s.framing)
    (he : s.env = txAnswers s.params .silent ++ rest) :
    Stops initStep4 s .respTimeout (txEvents s.params 58 0 .silent) rest .asserted :=
  (transact_r5_silent_stops (tx := .init .ocrVoltage) hf rfl he rfl).bind

theorem initStep6_silent {s : State} {rest : List Answer} (hf : s.framing)
    (he : s.env = txAnswers s.params .silent ++ rest) :
    Stops initStep6 s .respTimeout (txEvents s.params 58 0 .silent) rest .asserted :=
  (transact_r5_silent_stops (tx := .init .ocrPower) hf rfl he rfl).bind

/-! ### The frames as operations of their own -/

/-- Which CMD58 it is, is read from the sequencer position. -/
theorem exec_cmd58_power {s : State} (h : s.seq.tx = some (.init .ocrPower)) :
    exec .cmd58 s = runAlone initStep6 (fun _ => .done) s := by rw [exec, execCmd58, if_pos h]

theorem exec_cmd58_voltage {s : State} (h : s.seq.tx ≠ some (.init .ocrPower)) :
    exec .cmd58 s = runAlone initStep4 (fun _ => .done) s := by rw [exec, execCmd58, if_neg h]

/-- Whose CMD55 it is, is read from the sequencer position. -/
theorem exec_cmd55_erase {s : State} (h : s.seq.tx = some (.io .appErase)) :
    exec .cmd55 s = runAlone appErase (fun r => .response r.resp r.value) s := by rw [exec, execCmd55, if_pos h]

theorem exec_cmd55_opCond {s : State} (h : s.seq.tx ≠ some (.io .appErase)) :
    exec .cmd55 s = runAlone appOpCond (fun r => .response r.resp r.value) s := by rw [exec, execCmd55, if_neg h]

/-- Settles O22: each frame's chain, run alone. -/
theorem initializationFramesPass : Obligations.InitializationFramesPass := by
  intro s m b ocr rest hf hm
  refine ⟨fun he => (initStep2_does hf hm he).runAlone _, fun he => (initStep3_does hf hm he).runAlone _,
    fun htx hb hw he => ?_, fun htx hb hw he => ?_⟩
  · rw [exec_cmd58_voltage htx]
    exact (initStep4_does hf hm hb hw he).runAlone _
  · rw [exec_cmd58_power htx]
    obtain ⟨t, ht, htalk⟩ := initStep6_does hf hm hb hw he
    exact ⟨_, runAlone_ok ht, rfl, talked_returning htalk _⟩

/-- Settles O23: each frame's chain stops at its check. -/
theorem initializationFramesAbort : Obligations.InitializationFramesAbort := by
  intro s m b v ok rest hf hm hb
  refine ⟨fun hb' he => (initStep2_stops hf hm hb hb' he).runAlone _,
    fun hb' he => (initStep3_badR1 hf hm hb hb' he).runAlone _, fun hv he => (initStep3_badEcho hf hm hv he).runAlone _,
    fun htx hv he => ?_, fun htx hv he => ?_, fun htx he => ?_,
    fun he => ⟨(initStep2_silent hf he).runAlone _, (initStep3_silent hf he).runAlone _, ?_⟩⟩
  · rw [exec_cmd58_voltage htx]
    exact (initStep4_stops hf hm hb hv he).runAlone _
  · rw [exec_cmd58_power htx]
    exact (initStep6_stops hf hm hb hv he).runAlone _
  · rw [exec_cmd55_opCond htx]
    exact (appOpCond_stops hf (fits_after hm (by decide)) rfl he).runAlone _
  · by_cases htx : s.seq.tx = some (.init .ocrPower)
    · rw [exec_cmd58_power htx]
      exact (initStep6_silent hf he).runAlone _
    · rw [exec_cmd58_voltage htx]
      exact (initStep4_silent hf he).runAlone _

/-- Settles O24: no reply stops these chains, but for CMD55 in the loop of step 5. -/
theorem appCommandFramesGoOn : Obligations.AppCommandFramesGoOn := by
  intro s count r rest hf hr he
  refine ⟨fun h => ?_, (opCond_does hf hr he).runAlone _, (eraseCount_does hf hr count he).runAlone _⟩
  by_cases htx : s.seq.tx = some (.io .appErase)
  · rw [exec_cmd55_erase htx]
    exact (appErase_does hf hr he).runAlone _
  · rw [exec_cmd55_opCond htx]
    exact (appOpCond_does hf hr (h.resolve_right htx) he).runAlone _

/-! ### The frames of the sector operations -/

/-- The data commands and the stop command, which require R1 = 0x00 (R173, R175, R177, R180, R186). -/
def RequiresZero (x : IoTx) : Prop := ∀ r v, (Tx.io x).check r v = requireR1 0x00 .cmdBadR1 r

section data
variable {x : IoTx} {arg : Word} {s : State} {m : Nat} {rest : List Answer} (hx : RequiresZero x) (hf : s.framing)
include hx hf

theorem dataCommand_does (hm : m < s.params.nResp) (he : s.env = txAnswers s.params (.after m 0x00) ++ rest) :
    Does (transact (.io x) arg) s ⟨.byte 0x00, none⟩ (txEvents s.params (Tx.io x).index arg (.after m 0x00)) rest
      .asserted :=
  transact_r1_does (tx := .io x) hf rfl (fits_after hm (by decide)) he (hx _ _)

theorem dataCommand_stops {b : Byte} (hm : m < s.params.nResp) (hb : b ≠ 0x00) (hb' : b ≠ 0xFF)
    (he : s.env = txAnswers s.params (.after m b) ++ rest) :
    Stops (transact (.io x) arg) s .cmdBadR1 (txEvents s.params (Tx.io x).index arg (.after m b)) rest .asserted :=
  transact_r1_stops (tx := .io x) hf rfl (fits_after hm hb') he ((hx _ _).trans (if_neg hb))

theorem dataCommand_silent (he : s.env = txAnswers s.params .silent ++ rest) :
    Stops (transact (.io x) arg) s .respTimeout (txEvents s.params (Tx.io x).index arg .silent) rest .asserted :=
  transact_r1_stops (tx := .io x) (r := .silent) hf rfl rfl he (hx _ _)

end data

/-- Settles O25: the four data commands are one transaction each, with the same check. -/
theorem dataCommandFramesRequireZero : Obligations.DataCommandFramesRequireZero := by
  intro s arg m b ok rest i index hf hi
  obtain ⟨x, hx, rfl, hrun⟩ : ∃ x, RequiresZero x ∧ index = (Tx.io x).index ∧
      exec i s = runAlone (transact (.io x) arg) (fun r => .response r.resp r.value) s := by
    rcases hi with ⟨rfl, rfl⟩ | ⟨rfl, rfl⟩ | ⟨rfl, rfl⟩ | ⟨rfl, rfl⟩
    exacts [⟨.readOne, fun _ _ => rfl, rfl, rfl⟩, ⟨.readMany, fun _ _ => rfl, rfl, rfl⟩,
      ⟨.writeOne, fun _ _ => rfl, rfl, rfl⟩, ⟨.writeMany, fun _ _ => rfl, rfl, rfl⟩]
  rw [hrun]
  exact ⟨fun hm he => (dataCommand_does hx hf hm he).runAlone _,
    fun hm hb hb' he => (dataCommand_stops hx hf hm hb hb' he).runAlone _,
    fun he => (dataCommand_silent hx hf he).runAlone _⟩

theorem requiresZero_stopRead : RequiresZero .stopRead := fun _ _ => rfl

/-- The busy wait and the release after it (R144, R145). -/
theorem busyRelease_does {busy : List Byte} {s : State} {rest : List Answer} (hb : busyFits s.params busy = true)
    (he : s.env = busyAnswers busy ++ okAnswer :: rest) :
    Does (do busyWait; release) s () (busyEvents busy ++ [releaseEvent]) rest .deasserted :=
  Does.bind (busyWait_found he hb) fun _ h => release_does h.env

/-- R177: the stop phase of a multi-sector read. -/
theorem stopRead_does {m : Nat} {busy : List Byte} {s : State} {rest : List Answer} (hf : s.framing)
    (hm : m < s.params.nResp) (hb : busyFits s.params busy = true)
    (he : s.env = txAnswers s.params (.after m 0x00) ++ (busyAnswers busy ++ okAnswer :: rest)) :
    Does stopRead s () (txEvents s.params 12 0 (.after m 0x00) ++ (busyEvents busy ++ [releaseEvent])) rest .deasserted :=
  (dataCommand_does requiresZero_stopRead hf hm he).bind fun _ h => busyRelease_does (h.same.params ▸ hb) h.env

theorem stopRead_busy {m : Nat} {busy : List Byte} {s : State} {rest : List Answer} (hf : s.framing)
    (hm : m < s.params.nResp) (hlen : busy.length = s.params.nBusy) (hne : ∀ b ∈ busy, b ≠ 0xFF)
    (he : s.env = txAnswers s.params (.after m 0x00) ++ (busy.map (fun b => .ok [b]) ++ rest)) :
    Stops stopRead s .busyTimeout (txEvents s.params 12 0 (.after m 0x00) ++ busy.map byteRead) rest .asserted :=
  (dataCommand_does requiresZero_stopRead hf hm he).bind_stops fun _ h =>
    Stops.bind (h.cs ▸ busyWait_timeout (h.same.params ▸ hlen) hne h.env)

/-- Settles O26: the stop phase, run alone. -/
theorem stopCommandWaitsForIdle : Obligations.StopCommandWaitsForIdle := by
  intro s m b busy ok rest hf hm
  refine ⟨fun hb he => ?_, fun hb hb' he => ?_, fun hlen hne he => ?_, fun he => ?_⟩
  · rw [List.append_assoc] at he ⊢
    exact (stopRead_does hf hm hb he).runAlone _
  · exact (dataCommand_stops requiresZero_stopRead hf hm hb hb' he).bind.runAlone _
  · rw [List.append_assoc] at he
    exact (stopRead_busy hf hm hlen hne he).runAlone _
  · exact (dataCommand_silent requiresZero_stopRead hf he).bind.runAlone _

end Sys2Proof.Proofs
end

section
/-! The tokens, the data response and the responses as operations (R74 to R81, R143, R154, R155, R158, R181 to R189; O27,
O28, O29). -/

namespace Sys2Proof.Proofs

open Sys2Proof.Machine Sys2Proof.Laws

/-! ### A received unit, its bytes the next answers -/

section delivered
variable {α : Type} {op : Op α} {ret : α → Result} {s : State} {a : α} {c : AbortCause} {answers : List Answer}
  {es : List Event} {rest : List Answer} {cs : ChipSelect}

theorem Does.runAlone_deliver (h : Does op (s.deliver answers) a es rest cs) :
    ∃ t, Machine.runAlone op ret (s.deliver answers) = .next t ∧ t.result = ret a ∧ Talked s t es rest cs :=
  let ⟨t, ht, hres, htalk⟩ := h.runAlone ret
  ⟨t, ht, hres, talked_deliver htalk⟩

/-- An abort is told from the state the answers were given in. -/
theorem Stops.runAlone_deliver {ok : Bool} (h : Stops op (s.deliver answers) c es (cleanupAnswer ok :: rest) cs) :
    ∃ t, Machine.runAlone op ret (s.deliver answers) = .next t ∧ AbortedWith s t c es ok rest :=
  let ⟨_, ht, htalk⟩ := h
  ⟨_, runAlone_abort ht, aborted_after (talked_deliver htalk)⟩

end delivered

/-! ### Tokens and the data response -/

/-- The token poll on a token that is the next answer (R143). -/
theorem pollToken_next {s : State} (hn : 1 ≤ s.params.nToken) :
    Does pollToken (s.deliver [.ok [0xFE]]) () [byteRead 0xFE] s.env s.cs :=
  pollToken_found (m := 0) (s := s.deliver [.ok [0xFE]]) rfl hn

/-- R81: the model's check of a data response is the one of the rule's nibble. -/
theorem dataAccepted_iff (dr : Byte) : dataAccepted dr = true ↔ dr.extractLsb' 0 4 = 0b0101#4 := by
  revert dr; decide +kernel

theorem low_append_accepted (upper : BitVec 4) : (upper ++ 0b0101#4).extractLsb' 0 4 = 0b0101#4 := by
  revert upper; decide

/-- R189: the stop phase of a multi-sector write. -/
theorem stopWrite_does {busy : List Byte} {s : State} {rest : List Answer} (hb : busyFits s.params busy = true)
    (he : s.env = okAnswer :: (busyAnswers busy ++ okAnswer :: rest)) :
    Does stopWrite s () (wrote [0xFD] :: (busyEvents busy ++ [releaseEvent])) rest .deasserted :=
  Does.bind (writeOrAbort_talked he) fun _ h => busyRelease_does (h.same.params ▸ hb) h.env

/-- Settles O27: a token sent is one write, a unit received is the first answer its poll or check reads. -/
theorem tokensAreSentOrReceived : Obligations.TokensAreSentOrReceived := by
  intro s busy upper rest
  refine ⟨fun hsend he => ?_, fun hsend hn => ?_, fun he => ?_, fun hb he => (stopWrite_does hb he).runAlone _, ?_⟩
  · rw [exec, execTokenStartBlock, if_pos hsend]
    exact Does.runAlone (writeOrAbort_talked he) _
  · rw [exec, execTokenStartBlock, if_neg (by simp [hsend])]
    exact (pollToken_next hn).runAlone_deliver
  · rw [execTokenStartMultiWrite_eq]
    exact Does.runAlone (writeOrAbort_talked he) _
  · have haccepted : dataAccepted (upper ++ 0b0101#4) = true := (dataAccepted_iff _).2 (low_append_accepted upper)
    exact Does.runAlone_deliver (checkDataResponse_ok (s := s.deliver [.ok [upper ++ 0b0101#4]]) rfl haccepted)

/-! ### Responses -/

section responses
variable {s : State} {b : Byte} {w : Word} {rest : List Answer} (hb : b ≠ 0xFF) (hn : 1 ≤ s.params.nResp)
include hb hn

/-- A 5-byte response whose bytes are the next answers. -/
theorem receiveReply_next (he : s.env = rest) :
    Does (receiveReply .r5) (s.deliver [.ok [b], .ok (wordBytes w)]) ⟨.byte b, some w⟩ [byteRead b, wordRead w] rest
      s.cs :=
  receiveReply_r5 (m := 0) (s := s.deliver _) (rest := rest) (by rw [← he]; rfl) hn hb

theorem receiveChecked_does {tx : Tx} (hshape : tx.shape = .r5) (hc : tx.check (.byte b) (some w) = none)
    (he : s.env = rest) :
    Does (receiveChecked tx) (s.deliver [.ok [b], .ok (wordBytes w)]) ⟨.byte b, some w⟩ [byteRead b, wordRead w] rest
      s.cs := by
  obtain ⟨t, ht, htalk⟩ := receiveReply_next hb hn (w := w) he
  exact ⟨t, by rw [receiveChecked, hshape, op_bind_ok ht, hc]; rfl, htalk⟩

theorem receiveChecked_stops {tx : Tx} {c : AbortCause} (hshape : tx.shape = .r5)
    (hc : tx.check (.byte b) (some w) = some c) (he : s.env = rest) :
    Stops (receiveChecked tx) (s.deliver [.ok [b], .ok (wordBytes w)]) c [byteRead b, wordRead w] rest s.cs := by
  obtain ⟨t, ht, htalk⟩ := receiveReply_next hb hn (w := w) he
  exact ⟨t, by rw [receiveChecked, hshape, op_bind_ok ht, hc]; rfl, htalk⟩

end responses

/-- What an R3 is checked as, read from the sequencer position. -/
theorem exec_r3_voltage {s : State} (h : s.seq.tx ≠ some (.init .ocrPower)) (b : Byte) (w : Word) :
    exec (.r3 b w) s = runAlone (receiveChecked (.init .ocrVoltage)) (fun r => .response r.resp r.value)
      (s.deliver [.ok [b], .ok (wordBytes w)]) := by rw [exec, execR3, if_neg h]

/-- A response checked as step 6's: the addressing mode recorded (R158). -/
def receivePower : Op Reply := do
  let r ← receiveChecked (.init .ocrPower)
  recordCapacity r
  pure r

theorem exec_r3_power {s : State} (h : s.seq.tx = some (.init .ocrPower)) (b : Byte) (w : Word) :
    exec (.r3 b w) s = runAlone receivePower (fun r => .response r.resp r.value)
      (s.deliver [.ok [b], .ok (wordBytes w)]) := by rw [exec, execR3, if_pos h]; rfl

/-- Settles O28: a response received is the reply of its poll, and passes the check of its step. -/
theorem responsesPassTheirChecks : Obligations.ResponsesPassTheirChecks := by
  intro s b ocr hb hn
  refine ⟨?_, ?_, fun htx hw => ?_, fun htx hw => ?_⟩
  · exact Does.runAlone_deliver (pollResponse_reply (r := .after 0 b) (s := s.deliver [.ok [b]]) rfl (fits_after hn hb))
  · exact (receiveChecked_does (tx := .init .ifCond) (b := 0x01) (w := 426) (by decide) hn rfl rfl rfl).runAlone_deliver
  · rw [exec_r3_voltage htx]
    exact (receiveChecked_does (tx := .init .ocrVoltage) hb hn rfl (by rw [check_ocrVoltage, if_pos hw])
      rfl).runAlone_deliver
  · obtain ⟨t, ht, htalk⟩ := receiveChecked_does (tx := .init .ocrPower) (w := ocr) hb hn rfl
      (by rw [check_ocrPower, if_pos hw]) rfl
    have h2 := talked_deliver htalk
    rw [exec_r3_power htx]
    refine ⟨_, runAlone_ok ((op_bind_ok ht).trans (op_bind_ok (op_update _ _))), rfl, ?_⟩
    exact ⟨h2.trace, h2.env, h2.cs, { h2.same with isHc := rfl }⟩

/-- Settles O29: a response received stops at the check of its step. -/
theorem responsesFailTheirChecks : Obligations.ResponsesFailTheirChecks := by
  intro s b v ok rest hb hn he
  refine ⟨fun hb' => ?_, fun hv => ?_, fun htx hv => ?_, fun htx hv => ?_⟩
  · exact (receiveChecked_stops (tx := .init .ifCond) hb hn rfl (check_ifCond_other hb' _) he).runAlone_deliver
  · exact (receiveChecked_stops (tx := .init .ifCond) (b := 0x01) (by decide) hn rfl
      ((check_ifCond_idle v).trans (if_neg hv)) he).runAlone_deliver
  · rw [exec_r3_voltage htx]
    exact (receiveChecked_stops (tx := .init .ocrVoltage) hb hn rfl (by rw [check_ocrVoltage, hv]; rfl)
      he).runAlone_deliver
  · rw [exec_r3_power htx]
    exact ((receiveChecked_stops (tx := .init .ocrPower) hb hn rfl (by rw [check_ocrPower, hv]; rfl)
      he).bind).runAlone_deliver

end Sys2Proof.Proofs
end

section
/-! The host calls that make no transfer, the parameter checks, the address of a sector, the abort path alone and reset
(R170, R211, R215, R217 to R219, R236, R260; O35, O45, O46, O47, O49, O50). -/

namespace Sys2Proof.Proofs

open Sys2Proof.Machine Sys2Proof.Laws

/-! ### The address of a sector -/

theorem exec_addressFor (sector : Word) (s : State) :
    exec (.addressFor sector) s = .next (s.returning (.word (sectorAddress s.addressing sector))) :=
  runAlone_ok (addressFor_eq sector s)

/-- R60: the byte offset modulo 2^32, which stays a multiple of 512. -/
theorem byteOffset_toNat (sector : Word) :
    (sector * 512).toNat = (sector.toNat * 512) % 2 ^ 32 ∧ (sector * 512).toNat % 512 = 0 := by
  have h : (sector * 512).toNat = (sector.toNat * 512) % 2 ^ 32 := BitVec.toNat_mul sector 512
  exact ⟨h, by rw [h]; omega⟩

/-- Settles O35: the address is computed from the addressing mode read, the open one while none is known. -/
theorem addressFollowsTheCapacity : Obligations.AddressFollowsTheCapacity := by
  intro s sector
  refine ⟨fun h => ?_, fun h => ⟨sector * 512, ?_, byteOffset_toNat sector⟩, fun h => ⟨Config.unsetAddressing, ?_⟩⟩
  · rw [exec_addressFor, State.addressing, h]; rfl
  · rw [exec_addressFor, State.addressing, h]; rfl
  · intro sector'
    rw [exec_addressFor, State.addressing, h]; rfl

/-! ### The abort path and reset -/

/-- Settles O45: the abort path alone makes no call before the cleanup. -/
theorem abortPathCleansUpOnce : Obligations.AbortPathCleansUpOnce :=
  fun s _ _ _ he => ⟨_, rfl, aborted_after (he ▸ Talked.nothing s)⟩

/-- Settles O46: the table's cells are bit-wise CRCs, every other field is read off the reset state. -/
theorem resetGivesTheResetValues : Obligations.ResetGivesTheResetValues := by
  intro s
  exact ⟨s.resetFrom.returning .done, rfl, rfl, rfl, rfl, builtTable_bitwise, rfl, rfl, rfl, rfl, rfl, rfl, rfl, rfl, rfl,
    rfl, rfl, rfl⟩

/-! ### Status and timestamp -/

/-- Settles O47: behind R210's guard the answer is one test. -/
theorem statusReportsReady : Obligations.StatusReportsReady := by
  intro s drive hidle
  refine ⟨fun h => ?_, fun h => ?_⟩
  · rw [exec, execHostStatus, whenIdle_of_idle hidle, if_pos h]
  · rw [exec, execHostStatus, whenIdle_of_idle hidle, if_neg h]

/-- A field below the bits already set is added by OR. -/
theorem or_field (k : Nat) {x b : Nat} (hx : x % 2 ^ k = 0) (hb : b < 2 ^ k) : x ||| b = x + b := by
  rw [← Nat.div_add_mod' x (2 ^ k), hx, Nat.add_zero, ← Nat.shiftLeft_eq, Nat.shiftLeft_add_eq_or_of_lt hb]

/-- R218: the six fields in their places. -/
theorem pack_toNat {c : Calendar} (hyear : c.year ≤ 2107) (hmonth : c.month ≤ 12) (hday : c.day ≤ 31)
    (hhour : c.hour ≤ 23) (hminute : c.minute ≤ 59) (hsecond : c.second ≤ 59) :
    c.pack.toNat = (c.year - 1980) * 2 ^ 25 + c.month * 2 ^ 21 + c.day * 2 ^ 16 + c.hour * 2 ^ 11 + c.minute * 2 ^ 5
      + c.second / 2 := by
  have hfield : ∀ n k : Nat, n * 2 ^ k < 2 ^ 32 → (BitVec.ofNat 32 n <<< k).toNat = n * 2 ^ k := by
    intro n k h
    have hn : n < 2 ^ 32 := lt_of_le_of_lt (Nat.le_mul_of_pos_right n (Nat.two_pow_pos k)) h
    rw [BitVec.toNat_shiftLeft, BitVec.toNat_ofNat, Nat.mod_eq_of_lt hn, Nat.shiftLeft_eq, Nat.mod_eq_of_lt h]
  have hlast : (BitVec.ofNat 32 c.second >>> 1).toNat = c.second / 2 := by
    rw [BitVec.toNat_ushiftRight, BitVec.toNat_ofNat, Nat.mod_eq_of_lt (by omega), Nat.shiftRight_eq_div_pow]
  unfold Calendar.pack
  simp only [BitVec.toNat_or]
  rw [hfield _ _ (by omega), hfield _ _ (by omega), hfield _ _ (by omega), hfield _ _ (by omega), hfield _ _ (by omega),
    hlast, or_field 25 (b := c.month * 2 ^ 21) (by omega) (by omega),
    or_field 21 (b := c.day * 2 ^ 16) (by omega) (by omega), or_field 16 (b := c.hour * 2 ^ 11) (by omega) (by omega),
    or_field 11 (b := c.minute * 2 ^ 5) (by omega) (by omega), or_field 5 (b := c.second / 2) (by omega) (by omega)]

/-- R218 as the model's check. -/
theorem inRange_iff (c : Calendar) : c.inRange = true ↔
    1980 ≤ c.year ∧ c.year ≤ 2107 ∧ 1 ≤ c.month ∧ c.month ≤ 12 ∧ 1 ≤ c.day ∧ c.day ≤ 31 ∧ c.hour ≤ 23 ∧
      c.minute ≤ 59 ∧ c.second ≤ 59 := by
  simp only [Calendar.inRange, Bool.and_eq_true, decide_eq_true_eq]
  tauto

/-- R217, R219: a listed answer of the time source is packed, or refused. -/
theorem exec_hostTimestamp {s : State} {c : Calendar} {rest : List Calendar} (hidle : s.seq = .idle)
    (hc : s.clockAnswers = c :: rest) :
    exec .hostTimestamp s =
      if c.inRange then .next (({ s with clockAnswers := rest } : State).returning (.word c.pack))
      else .refused .timestampOutOfRange := by
  have hnext : s.nextCalendar = (c, { s with clockAnswers := rest }) := by simp [State.nextCalendar, hc]
  rw [exec, execHostTimestamp, whenIdle_of_idle hidle, hnext]

/-- Settles O49: within their ranges the six fields do not overlap. -/
theorem timestampPacksTheCalendar : Obligations.TimestampPacksTheCalendar := by
  intro s c rest hidle hc
  rw [exec_hostTimestamp hidle hc]
  refine ⟨fun h => ?_, fun h => if_neg fun hin => ?_⟩
  · rw [if_pos ((inRange_iff c).2 h)]
    obtain ⟨-, hyear, -, hmonth, -, hday, hhour, hminute, hsecond⟩ := h
    exact ⟨_, rfl, pack_toNat hyear hmonth hday hhour hminute hsecond⟩
  · have := (inRange_iff c).1 hin
    omega

/-! ### The parameter checks -/

/-- R210, R247: a host call while another is in progress. -/
theorem hostCall_refused {s : State} (hbusy : s.seq ≠ .idle) {j : Instr} (hj : j.isHostCall = true) :
    exec j s = .refused .callInProgress := by
  have hwhen : ∀ call, whenIdle s call = .refused .callInProgress := fun _ => if_neg hbusy
  cases j with
  | hostStatus | hostInitialize | hostRead | hostWrite | hostSync | hostTimestamp => exact hwhen _
  | _ => cases hj

/-- The sector call a host's read or write makes (R213, R214). -/
theorem exec_sectorCall {s : State} (hidle : s.seq = .idle) {i : Instr} {drive : Nat} {buf : Buffer} {sector count : Word}
    (hi : i = .hostRead drive buf sector count ∨ i = .hostWrite drive buf sector count) :
    ∃ dir, exec i s = checkedSectorCall drive (.ofCall dir buf sector count) s ∧
      i.storesTo = (match dir with | .read => some (buf, 0, count.toNat * 512) | .write => none) := by
  rcases hi with rfl | rfl
  · exact ⟨.read, by rw [exec, execHostRead, whenIdle_of_idle hidle], rfl⟩
  · exact ⟨.write, by rw [exec, execHostWrite, whenIdle_of_idle hidle], rfl⟩

/-- Freeing the buffer changes no other byte (R192). -/
theorem read_scrub_outside (s : State) (buf : Buffer) (count : Word) {a : Nat}
    (ha : ¬ (buf.base ≤ a ∧ a < buf.base + count.toNat * 512)) : (s.scrub buf count).mem.read a = s.mem.read a := by
  rw [scrub_mem]
  refine read_writeBytes_other _ _ ?_
  simp only [List.length_map, List.length_range, Config.sectorSize]
  omega

/-- R215: a rejection changes nothing of the block; what it frees is the buffer of a read. -/
theorem rejectedWith_afterFailure (s : State) {i : Instr} {dir : Direction} {buf : Buffer} {sector count : Word}
    (hi : i.storesTo = match dir with | .read => some (buf, 0, count.toNat * 512) | .write => none) (r : Rejection) :
    RejectedWith s ((s.afterFailure (.ofCall dir buf sector count)).returning (.rejected r)) i r := by
  cases dir with
  | read =>
    refine ⟨rfl, rfl, fun h => by simp [hi] at h, fun w hw a ha => ?_⟩
    obtain rfl : (buf, 0, count.toNat * 512) = w := Option.some.inj (hi.symm.trans hw)
    exact read_scrub_outside s buf count (by simpa [inStored] using ha)
  | write => exact ⟨rfl, rfl, fun _ => rfl, fun w hw => by simp [hi] at hw⟩

/-- R215: the parameter checks, in their order. -/
theorem checkParams_badDrive {drive : Nat} (h : drive ≠ 0) (buf : Buffer) (count : Word) :
    checkParams drive buf count = .reject .badDrive := if_pos h

theorem checkParams_zeroCount (buf : Buffer) : checkParams 0 buf 0 = .reject .zeroCount := rfl

theorem checkParams_nonzero (buf : Buffer) {count : Word} (h : count ≠ 0) :
    checkParams 0 buf count = if buf.holds count then .pass else .bufferTooShort := by
  rw [checkParams, if_neg (by decide), if_neg (by simpa using h)]

theorem holds_iff (buf : Buffer) (count : Word) : buf.holds count = true ↔ count.toNat * 512 ≤ buf.len := by
  exact decide_eq_true_iff

/-- A rejected call (R215). -/
theorem checkedSectorCall_reject {drive : Nat} {t : Transfer} {s : State} {r : Rejection}
    (h : checkParams drive t.buf t.count = .reject r) :
    checkedSectorCall drive t s = .next ((s.afterFailure t).returning (.rejected r)) := by
  rw [checkedSectorCall, h]

theorem checkedSectorCall_pass {drive : Nat} {t : Transfer} {s : State} (h : checkParams drive t.buf t.count = .pass) :
    checkedSectorCall drive t s = runAlone (sectorCall t) id s := by
  rw [checkedSectorCall, h]

/-- R171: on a READY card the ready check passes at once. -/
theorem ensureReady_ready {s : State} (h : s.session = .ready) : ensureReady s = .ok true s := by
  simp [ensureReady, op_bind_ok (op_get s), h]

/-- R215: outside the range a call on a READY card returns before any transfer. -/
theorem sectorCall_outOfRange {t : Transfer} {s : State} (hready : s.session = .ready)
    (hrange : Machine.inRange s.addressing t.sector = false) :
    sectorCall t s = .ok (.rejected .outOfRange) (s.afterFailure t) := by
  have hranged : rangedTransfer t s = .ok (.rejected .outOfRange) s := by
    rw [rangedTransfer, op_bind_ok (show addressingMode s = .ok s.addressing s from rfl), hrange]; rfl
  rw [sectorCall, op_bind_ok (ensureReady_ready hready), if_pos rfl, op_bind_ok hranged]
  rfl

theorem inRange_standard (sector : Word) : Machine.inRange false sector = false ↔ 0x7FFFFF < sector.toNat := by
  simp [Machine.inRange, Config.maxScSector, BitVec.le_def]

/-- Settles O50: each check ends the call where it stands, with the buffer of a read freed. -/
theorem rejectionsChangeNothing : Obligations.RejectionsChangeNothing := by
  intro s drive buf sector count i j hi
  refine ⟨fun hbusy hj => hostCall_refused hbusy hj, fun hidle => ?_⟩
  obtain ⟨dir, hexec, hstores⟩ := exec_sectorCall hidle hi
  rw [hexec]
  refine ⟨fun hdrive => ⟨⟨_, checkedSectorCall_reject (checkParams_badDrive hdrive ..),
    rejectedWith_afterFailure s hstores _⟩, ?_⟩, ?_, ?_, ?_⟩
  · rw [exec, execHostInitialize, whenIdle_of_idle hidle, if_pos hdrive]
  · rintro rfl rfl
    exact ⟨_, checkedSectorCall_reject (checkParams_zeroCount _), rejectedWith_afterFailure s hstores _⟩
  · rintro rfl hcount hshort
    have hnot : buf.holds count = false := by simpa [← Bool.not_eq_true, holds_iff] using hshort
    have hcheck := checkParams_nonzero buf hcount
    rw [hnot] at hcheck
    rw [checkedSectorCall,
      show checkParams 0 (Transfer.ofCall dir buf sector count).buf (Transfer.ofCall dir buf sector count).count = _ from
        hcheck]
    rfl
  · rintro rfl hcount hlong hready haddr hsector
    have hcheck := checkParams_nonzero buf hcount
    rw [if_pos ((holds_iff buf count).2 hlong)] at hcheck
    have hrange : Machine.inRange s.addressing sector = false := haddr ▸ (inRange_standard sector).2 hsector
    rw [checkedSectorCall_pass hcheck]
    exact ⟨_, runAlone_ok (sectorCall_outOfRange (t := .ofCall dir buf sector count) hready hrange),
      rejectedWith_afterFailure s hstores _⟩

end Sys2Proof.Proofs
end

section
/-! No operation reads the sequencer position, the result or the sector counter: it does the same whatever they hold, and
leaves them as it finds them (R18, R21). What an operation does is thereby the same in the whole call and in the steps of
the sequencer. -/

namespace Sys2Proof.Proofs

open Sys2Proof.Machine Sys2Proof.Laws

/-- The same state with the position, the result and the sector counter changed. -/
def veiled (q : Seq → Seq) (r : Result → Result) (n : Nat → Nat) (s : State) : State :=
  { s with seq := q s.seq, result := r s.result, k := n s.k }

theorem goto_eq_veiled (q : Seq) (s : State) : s.goto q = veiled (fun _ => q) id id s := rfl

theorem returning_eq_veiled (r : Result) (s : State) : s.returning r = veiled id (fun _ => r) id s := rfl

/-- The outcome with the state it leaves changed. -/
def shifted {α : Type} (g : State → State) : EStateM.Result Stop State α → EStateM.Result Stop State α
  | .ok a t => .ok a (g t)
  | .error e t => .error e (g t)

/-- The operation neither reads nor writes what the change is about. -/
def Blind {α : Type} (g : State → State) (op : Op α) : Prop := ∀ s, op (g s) = shifted g (op s)

section general
variable {α β : Type} {g : State → State}

theorem blind_pure (a : α) : Blind g (pure a : Op α) := fun _ => rfl

theorem blind_raise (c : AbortCause) : Blind g (raise c : Op α) := fun _ => rfl

theorem blind_abortOn (c : Option AbortCause) : Blind g (abortOn c) := by
  cases c
  · exact blind_pure ()
  · exact blind_raise _

theorem blind_require (ok : Bool) (c : AbortCause) : Blind g (require ok c) := by
  intro s; cases ok <;> rfl

/-- An update that commutes with the change. -/
theorem blind_update {f : State → State} (h : ∀ s, f (g s) = g (f s)) : Blind g (update f) := fun s => by
  rw [op_update, op_update, h]; rfl

theorem blind_bind {x : Op α} {f : α → Op β} (hx : Blind g x) (hf : ∀ a, Blind g (f a)) : Blind g (x >>= f) := by
  intro s
  have hs := hx s
  cases h : x s with
  | ok a t => rw [op_bind_ok h, op_bind_ok (by rw [hs, h]; rfl), hf]
  | error e t => rw [op_bind_error h, op_bind_error (by rw [hs, h]; rfl)]; rfl

/-- A read of the state of which only a part that the change keeps is used. -/
theorem blind_get {f : State → Op β} (hget : ∀ s, f (g s) = f s) (hf : ∀ s, Blind g (f s)) :
    Blind g (get >>= f) := by
  intro s
  rw [op_bind_ok (op_get _), op_bind_ok (op_get _), hget]
  exact hf s s

end general

section veil
variable (q : Seq → Seq) (r : Result → Result) (n : Nat → Nat)

/-! ### Transport calls -/

theorem nextAnswer_veiled (m : Nat) (s : State) :
    (veiled q r n s).nextAnswer m = ((s.nextAnswer m).1, veiled q r n (s.nextAnswer m).2) := by
  simp only [State.nextAnswer]
  cases hs : s.env with
  | nil => rw [show (veiled q r n s).env = [] from hs]; rfl
  | cons a rest =>
    rw [show (veiled q r n s).env = a :: rest from hs]
    cases a <;> rfl

theorem exchange_veiled (m : Nat) (pol : Policy) (ev : Option (List Byte) → Event) (s : State) :
    (veiled q r n s).exchange m pol ev = ((s.exchange m pol ev).1, veiled q r n (s.exchange m pol ev).2) := by
  have h := nextAnswer_veiled q r n m { s with cs := csBefore pol s.cs }
  simp only [State.exchange]
  rw [show ({ veiled q r n s with cs := csBefore pol (veiled q r n s).cs } : State) =
    veiled q r n { s with cs := csBefore pol s.cs } from rfl, h]
  rfl

theorem xferWrite_veiled (bytes : List Byte) (pol : Policy) (s : State) :
    xferWrite bytes pol (veiled q r n s) = ((xferWrite bytes pol s).1, veiled q r n (xferWrite bytes pol s).2) := by
  simp only [xferWrite, exchange_veiled]

theorem xferSetClock_veiled (rate : Rate) (s : State) :
    xferSetClock rate (veiled q r n s) = ((xferSetClock rate s).1, veiled q r n (xferSetClock rate s).2) := by
  simp only [xferSetClock, nextAnswer_veiled]
  rfl

theorem blind_write (bytes : List Byte) (pol : Policy) : Blind (veiled q r n) (writeOrAbort bytes pol) := by
  intro s
  simp only [writeOrAbort, xferWrite_veiled]
  rcases xferWrite bytes pol s with ⟨ok, t⟩
  cases ok <;> rfl

theorem blind_read (m : Nat) (pol : Policy) : Blind (veiled q r n) (readOrAbort m pol) := by
  intro s
  simp only [readOrAbort, xferRead, exchange_veiled]
  rcases s.exchange m pol (.read m pol) with ⟨a, t⟩
  cases a <;> rfl

theorem blind_clock (rate : Rate) : Blind (veiled q r n) (clockOrAbort rate) := by
  intro s
  simp only [clockOrAbort, xferSetClock_veiled]
  rcases xferSetClock rate s with ⟨ok, t⟩
  cases ok <;> rfl

theorem blind_readByte (pol : Policy) : Blind (veiled q r n) (readByteOrAbort pol) :=
  blind_bind (blind_read q r n 1 pol) fun _ => blind_pure _

theorem blind_release : Blind (veiled q r n) release := blind_write q r n _ _

/-! ### The frame, the polls, a transaction -/

theorem blind_fold (crc byte : Byte) : Blind (veiled q r n) (fold crc byte) := by
  intro s
  by_cases h : s.tableBuilt <;> simp [fold, veiled, h, shifted]

theorem blind_compute (bytes : List Byte) : Blind (veiled q r n) (compute bytes) := by
  unfold compute
  generalize (0 : Byte) = c
  induction bytes generalizing c with
  | nil => exact blind_pure c
  | cons b bs ih => rw [List.foldlM_cons]; exact blind_bind (blind_fold q r n c b) ih

theorem blind_assemble (index : Nat) (arg : Word) : Blind (veiled q r n) (assemble index arg) := by
  unfold assemble
  split
  · exact fun _ => rfl
  · exact blind_bind (blind_compute q r n _) fun _ => blind_pure _

theorem blind_pollResponse : Blind (veiled q r n) pollResponse := by
  have loop : ∀ left, Blind (veiled q r n) (pollResponseLoop left) := by
    intro left
    induction left with
    | zero => exact blind_pure _
    | succ left ih =>
      refine blind_bind (blind_readByte q r n _) fun b => blind_bind (blind_update fun _ => rfl) fun _ => ?_
      split
      · exact ih
      · exact blind_pure _
  exact blind_bind (blind_update fun _ => rfl) fun _ => blind_get (fun _ => rfl) fun _ =>
    blind_bind (loop _) fun _ => blind_bind (blind_update fun _ => rfl) fun _ => blind_pure _

theorem blind_pollToken : Blind (veiled q r n) pollToken := by
  have loop : ∀ left, Blind (veiled q r n) (pollTokenLoop left) := by
    intro left
    induction left with
    | zero => exact blind_raise _
    | succ left ih =>
      refine blind_bind (blind_readByte q r n _) fun b => blind_bind (blind_update fun _ => rfl) fun _ => ?_
      split
      · exact blind_pure _
      · split
        · exact ih
        · exact blind_raise _
  exact blind_bind (blind_update fun _ => rfl) fun _ => blind_get (fun _ => rfl) fun _ =>
    blind_bind (loop _) fun _ => blind_update fun _ => rfl

theorem blind_busyWait : Blind (veiled q r n) busyWait := by
  have loop : ∀ left, Blind (veiled q r n) (busyWaitLoop left) := by
    intro left
    induction left with
    | zero => exact blind_raise _
    | succ left ih =>
      refine blind_bind (blind_readByte q r n _) fun b => blind_bind (blind_update fun _ => rfl) fun _ => ?_
      split
      · exact blind_pure _
      · exact ih
  exact blind_bind (blind_update fun _ => rfl) fun _ => blind_get (fun _ => rfl) fun _ =>
    blind_bind (loop _) fun _ => blind_update fun _ => rfl

theorem blind_receiveReply (shape : Shape) : Blind (veiled q r n) (receiveReply shape) := by
  refine blind_bind (blind_pollResponse q r n) fun resp => ?_
  match shape, resp with
  | .r1, _ => exact blind_pure _
  | .r5, .timeout => exact blind_pure _
  | .r5, .byte _ => exact blind_bind (blind_read q r n 4 _) fun _ => blind_pure _

theorem blind_sendCmd (index : Nat) (arg : Word) (shape : Shape) : Blind (veiled q r n) (sendCmd index arg shape) :=
  blind_bind (blind_assemble q r n _ _) fun _ => blind_bind (blind_write q r n _ _) fun _ => blind_receiveReply q r n _

theorem blind_transact (tx : Tx) (arg : Word) : Blind (veiled q r n) (transact tx arg) :=
  blind_bind (blind_sendCmd q r n _ _ _) fun _ => blind_bind (blind_abortOn _) fun _ => blind_pure _

theorem blind_released (tx : Tx) (arg : Word) :
    Blind (veiled q r n) (do let a ← transact tx arg; release; pure a) :=
  blind_bind (blind_transact q r n _ _) fun _ => blind_bind (blind_release q r n) fun _ => blind_pure _

/-! ### Sector operations -/

theorem blind_addressFor (sector : Word) : Blind (veiled q r n) (addressFor sector) :=
  blind_bind (fun _ => rfl) fun _ => blind_pure _

theorem blind_receiveBlock (buf : Buffer) (off : Nat) : Blind (veiled q r n) (receiveBlock buf off) :=
  blind_bind (blind_pollToken q r n) fun _ => blind_bind (blind_read q r n _ _) fun _ =>
    blind_bind (blind_update fun _ => rfl) fun _ => blind_bind (blind_read q r n _ _) fun _ => blind_pure _

theorem blind_sendBlock (token : BlockToken) (buf : Buffer) (off : Nat) :
    Blind (veiled q r n) (sendBlock token buf off) :=
  blind_bind (blind_write q r n _ _) fun _ => blind_get (fun _ => rfl) fun _ =>
    blind_bind (blind_write q r n _ _) fun _ => blind_write q r n _ _

theorem blind_checkDataResponse : Blind (veiled q r n) checkDataResponse :=
  blind_bind (blind_readByte q r n _) fun _ => blind_require _ _

theorem blind_stopRead : Blind (veiled q r n) stopRead :=
  blind_bind (blind_transact q r n _ _) fun _ => blind_bind (blind_busyWait q r n) fun _ => blind_release q r n

theorem blind_stopWrite : Blind (veiled q r n) stopWrite :=
  blind_bind (blind_write q r n _ _) fun _ => blind_bind (blind_busyWait q r n) fun _ => blind_release q r n

theorem blind_readSingleBody (buf : Buffer) (sector : Word) : Blind (veiled q r n) (readSingleBody buf sector) :=
  blind_bind (blind_addressFor q r n _) fun _ => blind_bind (blind_transact q r n _ _) fun _ =>
    blind_bind (blind_receiveBlock q r n _ _) fun _ => blind_release q r n

theorem blind_writeSingleBody (buf : Buffer) (sector : Word) : Blind (veiled q r n) (writeSingleBody buf sector) :=
  blind_bind (blind_addressFor q r n _) fun _ => blind_bind (blind_transact q r n _ _) fun _ =>
    blind_bind (blind_sendBlock q r n _ _ _) fun _ => blind_bind (blind_checkDataResponse q r n) fun _ =>
    blind_bind (blind_busyWait q r n) fun _ => blind_release q r n

/-- The sector loops write the counter: a change that keeps it goes through them. -/
theorem blind_receiveBlocks (buf : Buffer) (k left : Nat) : Blind (veiled q r id) (receiveBlocks buf k left) := by
  induction left generalizing k with
  | zero => exact blind_pure _
  | succ left ih =>
    exact blind_bind (blind_update fun _ => rfl) fun _ => blind_bind (blind_receiveBlock q r id _ _) fun _ => ih _

theorem blind_writeBlock (buf : Buffer) (k : Nat) : Blind (veiled q r n) (writeBlock buf k) :=
  blind_bind (blind_sendBlock q r n _ _ _) fun _ => blind_bind (blind_checkDataResponse q r n) fun _ =>
    blind_busyWait q r n

theorem blind_writeBlocks (buf : Buffer) (k left : Nat) : Blind (veiled q r id) (writeBlocks buf k left) := by
  induction left generalizing k with
  | zero => exact blind_pure _
  | succ left ih =>
    exact blind_bind (blind_update fun _ => rfl) fun _ => blind_bind (blind_writeBlock q r id _ _) fun _ => ih _

theorem blind_readMultiBody (buf : Buffer) (sector count : Word) :
    Blind (veiled q r id) (readMultiBody buf sector count) :=
  blind_bind (blind_addressFor q r id _) fun _ => blind_bind (blind_transact q r id _ _) fun _ =>
    blind_bind (blind_receiveBlocks q r _ _ _) fun _ => blind_stopRead q r id

theorem blind_writeMultiBody (buf : Buffer) (sector count : Word) :
    Blind (veiled q r id) (writeMultiBody buf sector count) :=
  blind_bind (blind_released q r id _ _) fun _ => blind_bind (blind_released q r id _ _) fun _ =>
    blind_bind (blind_addressFor q r id _) fun _ => blind_bind (blind_transact q r id _ _) fun _ =>
    blind_bind (blind_writeBlocks q r _ _ _) fun _ => blind_stopWrite q r id

/-! ### The end of an operation -/

/-- The abort path of an operation that ends idle. -/
theorem abort_veiled (hq : q .idle = .idle) (c : AbortCause) (s : State) :
    (veiled q r id s).abort c = veiled q r id (s.abort c) := by
  have h := xferWrite_veiled q r id [0xFF] .deassert { s with cause := some c }
  simp only [State.abort, State.abortTail]
  rw [show ({ veiled q r id s with cause := some c } : State) = veiled q r id { s with cause := some c } from rfl, h]
  simp only [veiled, hq, State.retireCounters, id]

theorem blind_settled {body : Op Unit} (hq : q .idle = .idle) (h : Blind (veiled q r id) body) :
    Blind (veiled q r id) (settled body) := by
  intro s
  have hs := h s
  unfold settled
  cases hb : body s with
  | ok a t =>
    rw [hs, hb]
    simp only [shifted, State.settleOk, veiled, hq, State.retireCounters, id]
  | error e t =>
    rw [hs, hb]
    cases e with
    | abort c => simp only [shifted, abort_veiled q r hq]
    | fault f => rfl
    | refuse x => rfl

end veil

/-- A sector operation after the ready check does not see the result. -/
theorem blind_transferOp (x : Result) (t : Transfer) : Blind (veiled id (fun _ => x) id) (transferOp t) := by
  unfold transferOp
  split
  · split
    · exact blind_settled _ _ rfl (blind_readMultiBody _ _ _ _ _)
    · exact blind_settled _ _ rfl (blind_readSingleBody _ _ id _ _)
  · split
    · exact blind_settled _ _ rfl (blind_writeMultiBody _ _ _ _ _)
    · exact blind_settled _ _ rfl (blind_writeSingleBody _ _ id _ _)

theorem blind_rangedTransfer (x : Result) (t : Transfer) : Blind (veiled id (fun _ => x) id) (rangedTransfer t) := by
  refine blind_bind (fun _ => rfl) fun hc => ?_
  split
  · exact blind_bind (blind_transferOp x t) fun _ => blind_pure _
  · exact blind_pure _

end Sys2Proof.Proofs
end

section
/-! Initialization on the answers of a card (R150 to R164; O30, O32, O33). -/

namespace Sys2Proof.Proofs

open Sys2Proof.Machine Sys2Proof.Laws

/-! ### Updates between calls

Calls are told from a state and to a state; the same update of both leaves the calls the same. -/

section updates
variable {s t : State} {es : List Event} {rest : List Answer} {cs : ChipSelect} (h : Talked s t es rest cs)
include h

theorem talked_iter (n : Nat) : Talked { s with iter := n } { t with iter := n } es rest cs :=
  ⟨h.trace, h.env, h.cs, { h.same with iter := rfl }⟩

theorem talked_clock (c : Clock) : Talked { s with clock := c } { t with clock := c } es rest cs :=
  ⟨h.trace, h.env, h.cs, { h.same with clock := rfl }⟩

theorem talked_isHc (v : Option Bool) : Talked { s with isHc := v } { t with isHc := v } es rest cs :=
  ⟨h.trace, h.env, h.cs, { h.same with isHc := rfl }⟩

theorem talked_session (x : Session) : Talked { s with session := x } { t with session := x } es rest cs :=
  ⟨h.trace, h.env, h.cs, { h.same with session := rfl }⟩

end updates

/-- A clock selection, told from a state that holds the rate it leaves (R124). -/
theorem talked_clocked (rate : Rate) (ok : Bool) (rest : List Answer) (s : State) :
    Talked { s with clock := if ok then .at rate else .unknown } (State.clocked rate ok rest s) [.setClock rate ok] rest
      s.cs :=
  ⟨rfl, rfl, rfl, ⟨rfl, rfl, rfl, rfl, rfl, rfl, rfl, rfl, rfl, rfl, rfl, rfl, rfl, rfl⟩⟩

/-- No call writes the table. -/
theorem framing_after {s t : State} {es : List Event} {rest : List Answer} {cs : ChipSelect} (h : Talked s t es rest cs)
    (hf : s.framing) : t.framing := framing_of_same hf h.same

/-! ### The parts of the sequence -/

/-- Steps 5 to 8 (R156 to R160). -/
def initTail : Op Unit := do
  initStep5
  initStep6
  initStep7
  initStep8

/-- Steps 2 to 8. -/
def initRest : Op Unit := do
  initStep2
  initStep3
  initStep4
  initTail

/-- What initialization has written of the session's record by the time it calls the card (R150 to R158). -/
abbrev bringingUp (s : State) (clock : Clock) (isHc : Option Bool) (n : Nat) : State :=
  { s with session := .initializing, clock := clock, isHc := isHc, iter := n }

/-- Step 1 (R151, R152). -/
theorem initStep1_does {s : State} {rest : List Answer} (he : s.env = okAnswer :: okAnswer :: rest) :
    ∃ t, initStep1 s = .ok () t ∧ Talked { s with clock := .at .slow } t
      [.setClock .slow true, wrote (List.replicate s.params.nWake 0xFF)] rest s.cs := by
  have h1 := talked_clocked .slow true (okAnswer :: rest) s
  have h2 := h1.trans (talked_exchanged .none true (wrote (List.replicate s.params.nWake 0xFF)) rest _)
  refine ⟨_, ?_, h2⟩
  rw [initStep1, op_bind_ok (clockOrAbort_ok he), op_bind_ok (op_get _), writeOrAbort_ok rfl]
  rfl

/-- Step 1, the session INITIALIZING. -/
theorem initBody_wakes {s : State} {rest : List Answer} (he : s.env = okAnswer :: okAnswer :: rest) :
    ∃ t, initBody s = initRest t ∧ Talked (bringingUp s (.at .slow) s.isHc s.iter) t
      [.setClock .slow true, wrote (List.replicate s.params.nWake 0xFF)] rest s.cs := by
  obtain ⟨t, hrun, ht⟩ := initStep1_does (s := { s with session := .initializing }) he
  refine ⟨t, ?_, ht⟩
  rw [initBody, op_bind_ok (op_update _ _), op_bind_ok hrun]
  rfl

/-- Steps 1 to 4 (R151 to R155). -/
theorem initBody_head {s : State} {c : CardInit} {rest : List Answer} (hf : s.framing) (hc : c.headPasses s.params = true)
    (he : s.env = c.headAnswers s.params ++ rest) :
    ∃ t, initBody s = initTail t ∧ Talked (bringingUp s (.at .slow) s.isHc s.iter) t (c.headEvents s.params) rest
      .deasserted := by
  simp only [CardInit.headPasses, Bool.and_eq_true, decide_eq_true_eq, bne_iff_ne, ne_eq] at hc
  obtain ⟨⟨⟨⟨hidle, hcond⟩, hvolt⟩, hr1⟩, hbit⟩ := hc
  simp only [CardInit.headAnswers, List.append_assoc, List.cons_append, List.nil_append] at he
  obtain ⟨t1, hrun1, h1⟩ := initBody_wakes he
  have hf1 : t1.framing := framing_after h1 hf
  have hp1 : t1.params = s.params := h1.same.params
  obtain ⟨t2, hrun2, h2⟩ := initStep2_does hf1 (hp1 ▸ hidle) (hp1.symm ▸ h1.env)
  have h12 := h1.trans h2
  obtain ⟨t3, hrun3, h3⟩ := initStep3_does (framing_after h12 hf) (h12.same.params ▸ hcond) h12.env
  have h13 := h12.trans h3
  obtain ⟨t4, hrun4, h4⟩ := initStep4_does (framing_after h13 hf) (h13.same.params ▸ hvolt) hr1 hbit h13.env
  have h14 := h13.trans h4
  refine ⟨t4, ?_, ?_⟩
  · rw [hrun1, initRest, op_bind_ok hrun2, op_bind_ok hrun3, op_bind_ok hrun4]
  · rw [hp1] at h14
    simpa [CardInit.headEvents] using h14

/-- One round of the loop of step 5 (R156, R157). -/
theorem opCondLoop_round {s : State} {r : CardReply × CardReply} {rest : List Answer} (left : Nat) (hf : s.framing)
    (h1 : r.1.fits s.params.nResp = true) (h4 : r.1.resp ≠ .byte 0x04) (h2 : r.2.fits s.params.nResp = true)
    (he : s.env = roundAnswers s.params r ++ rest) :
    ∃ t, opCondLoop (left + 1) s = (if r.2.resp = .byte 0x00 then pure () else opCondLoop left) t ∧
      Talked { s with iter := t.iter } t (roundEvents s.params r) rest .deasserted := by
  simp only [roundAnswers, List.append_assoc, List.cons_append, List.nil_append] at he
  have h0 := talked_iter (Talked.nothing s) (s.iter + 1)
  obtain ⟨t1, hrun1, ht1⟩ := appOpCond_does (s := { s with iter := s.iter + 1 }) hf h1 h4 he
  obtain ⟨t2, hrun2, ht2⟩ := opCond_does (framing_after ht1 hf) (ht1.same.params ▸ h2)
    (ht1.same.params ▸ ht1.env)
  have h := ht1.trans ht2
  refine ⟨t2, ?_, ?_⟩
  · rw [opCondLoop, op_bind_ok (op_update _ _), op_bind_ok hrun1, op_bind_ok hrun2]
  · rw [show t2.iter = s.iter + 1 from h.same.iter]
    rw [ht1.same.params] at h
    simpa [roundEvents] using h

theorem roundGoesOn_iff (p : Params) (r : CardReply × CardReply) : roundGoesOn p r = true ↔
    r.1.fits p.nResp = true ∧ r.1.resp ≠ .byte 0x04 ∧ r.2.fits p.nResp = true ∧ r.2.resp ≠ .byte 0x00 := by
  simp [roundGoesOn, and_assoc]

/-- The rounds that go on (R157). -/
theorem opCondLoop_goesOn {rounds : List (CardReply × CardReply)} {s : State} {rest : List Answer} (left : Nat)
    (hf : s.framing) (hcs : s.cs = .deasserted) (hr : rounds.all (roundGoesOn s.params) = true)
    (he : s.env = (rounds.map (roundAnswers s.params)).flatten ++ rest) :
    ∃ t, opCondLoop (rounds.length + left) s = opCondLoop left t ∧
      Talked { s with iter := t.iter } t (rounds.map (roundEvents s.params)).flatten rest .deasserted := by
  induction rounds generalizing s with
  | nil =>
    have h0 := Talked.nothing s
    rw [hcs, he] at h0
    exact ⟨s, by simp, h0⟩
  | cons r rounds ih =>
    rw [List.all_cons, Bool.and_eq_true, roundGoesOn_iff] at hr
    obtain ⟨⟨h1, h4, h2, h0⟩, hr⟩ := hr
    rw [List.map_cons, List.flatten_cons, List.append_assoc] at he
    obtain ⟨t, hrun, ht⟩ := opCondLoop_round (rounds.length + left) hf h1 h4 h2 he
    have hp : t.params = s.params := ht.same.params
    obtain ⟨u, hrun', hu⟩ := ih (framing_after ht hf) ht.cs (hp ▸ hr) (hp ▸ ht.env)
    refine ⟨u, ?_, ?_⟩
    · rw [List.length_cons, Nat.add_right_comm, hrun, if_neg h0, hrun']
    · exact hp ▸ (talked_iter ht u.iter).trans hu

/-- Step 5 (R156), at most 1600 rounds. -/
theorem initStep5_does {rounds : List (CardReply × CardReply)} {last : CardReply × CardReply} {s : State}
    {rest : List Answer} (hf : s.framing) (hcs : s.cs = .deasserted) (hlen : rounds.length < 1600)
    (hr : rounds.all (roundGoesOn s.params) = true) (h1 : last.1.fits s.params.nResp = true)
    (h4 : last.1.resp ≠ .byte 0x04) (h2 : last.2.fits s.params.nResp = true) (h0 : last.2.resp = .byte 0x00)
    (he : s.env = (rounds.map (roundAnswers s.params)).flatten ++ (roundAnswers s.params last ++ rest)) :
    ∃ t, initStep5 s = .ok () t ∧ Talked { s with iter := t.iter } t
      ((rounds.map (roundEvents s.params)).flatten ++ roundEvents s.params last) rest .deasserted := by
  obtain ⟨left, hleft⟩ : ∃ left, Config.nInitIter = rounds.length + (left + 1) :=
    ⟨1599 - rounds.length, by simp only [Config.nInitIter]; omega⟩
  obtain ⟨t, hrun, ht⟩ := opCondLoop_goesOn (s := { s with iter := 0 }) (left + 1) hf hcs hr he
  have hp : t.params = s.params := ht.same.params
  obtain ⟨u, hrun', hu⟩ := opCondLoop_round left (framing_after ht hf) (hp ▸ h1) h4 (hp ▸ h2) (hp ▸ ht.env)
  refine ⟨u, ?_, hp ▸ (talked_iter ht u.iter).trans hu⟩
  rw [initStep5, op_bind_ok (op_update _ _), hleft, hrun, hrun', if_pos h0]
  rfl

/-- R156: the bound. -/
theorem initStep5_gives_up {rounds : List (CardReply × CardReply)} {s : State} {rest : List Answer} (hf : s.framing)
    (hcs : s.cs = .deasserted) (hlen : rounds.length = 1600) (hr : rounds.all (roundGoesOn s.params) = true)
    (he : s.env = (rounds.map (roundAnswers s.params)).flatten ++ rest) :
    ∃ t, initStep5 s = .error (.abort .initTimeout) t ∧
      Talked { s with iter := t.iter } t (rounds.map (roundEvents s.params)).flatten rest .deasserted := by
  obtain ⟨t, hrun, ht⟩ := opCondLoop_goesOn (s := { s with iter := 0 }) 0 hf hcs hr he
  refine ⟨t, ?_, ht⟩
  rw [initStep5, op_bind_ok (op_update _ _), show Config.nInitIter = rounds.length + 0 from hlen.symm, hrun]
  rfl

/-- Steps 1 to 6 (R151 to R158). -/
theorem initBody_slow {s : State} {c : CardInit} {rest : List Answer} (hf : s.framing) (hc : c.passes s.params = true)
    (he : s.env = c.slowAnswers s.params ++ rest) :
    ∃ t n, initBody s = (do initStep7; initStep8 : Op Unit) t ∧
      Talked (bringingUp s (.at .slow) (some (c.power.getLsbD 30)) n) t (c.slowEvents s.params) rest .deasserted := by
  simp only [CardInit.passes, Bool.and_eq_true, decide_eq_true_eq, bne_iff_ne, ne_eq] at hc
  obtain ⟨⟨⟨⟨⟨⟨⟨⟨hhead, hlen⟩, hrounds⟩, hlast⟩, hlast4⟩, hlastOp⟩, hpower⟩, hr1⟩, hbit⟩ := hc
  simp only [CardInit.slowAnswers, List.append_assoc] at he
  obtain ⟨t1, hrun1, h1⟩ := initBody_head hf hhead he
  have hp1 : t1.params = s.params := h1.same.params
  obtain ⟨t2, hrun2, h2⟩ := initStep5_does (last := (c.lastApp, .after c.lastOp 0x00)) (framing_after h1 hf) h1.cs
    hlen (hp1 ▸ hrounds) (hp1 ▸ hlast) hlast4 (hp1 ▸ fits_after hlastOp (by decide)) rfl (hp1 ▸ h1.env)
  have h12 := (talked_iter h1 t2.iter).trans h2
  have hp2 : t2.params = s.params := h12.same.params
  obtain ⟨t3, hrun3, h3⟩ := initStep6_does (framing_after h12 hf) (hp2 ▸ hpower) hr1 hbit h12.env
  have h13 := (talked_isHc h12 _).trans h3
  refine ⟨t3, t2.iter, ?_, ?_⟩
  · rw [hrun1, initTail, op_bind_ok hrun2, op_bind_ok hrun3]
  · rw [hp1] at h13
    simpa [CardInit.slowEvents] using h13

/-! ### The ends -/

/-- An initialization that fails (R161), told from the record it has written by then. -/
theorem initialize_fails {s t : State} {c : AbortCause} {es : List Event} {ok : Bool} {rest : List Answer} {cs : ChipSelect}
    {clock : Clock} {isHc : Option Bool} {n : Nat} (hrun : initBody s = .error (.abort c) t)
    (h : Talked (bringingUp s clock isHc n) t es (cleanupAnswer ok :: rest) cs) :
    ∃ u, exec .sessionInitialize s = .next u ∧ InitFailed s u c es ok rest ∧ u.clock = clock ∧ u.isHc = isHc := by
  have ha := aborted_after (c := c) h
  refine ⟨_, runAlone_ok (settled_abort hrun), ⟨rfl, ?_, ha.cause, ha.lastOk, ha.seq, ha.cs, ha.trace, ha.env, ha.mem, ?_⟩,
    ha.clock, ha.isHc⟩
  · simpa using ha.session
  · obtain ⟨htable, hbuilt, hparams, hclock, hreq⟩ := ha.fixed
    exact ⟨htable, hbuilt, hparams, hclock, hreq⟩

/-- A host's call and the ready check run the same initialization (R171, R212). -/
theorem exec_initialize {s : State} {i : Instr}
    (hi : i = .sessionInitialize ∨ (i = .hostInitialize 0 ∧ s.seq = .idle) ∨ (i = .ensureReady ∧ s.session ≠ .ready)) :
    exec i s = runAlone sessionInitialize okOrFailed s := by
  rcases hi with rfl | ⟨rfl, hidle⟩ | ⟨rfl, hready⟩
  · rfl
  · rw [exec, execHostInitialize, whenIdle_of_idle hidle, if_neg (by decide)]
  · have h : ensureReady s = sessionInitialize s := by
      rw [ensureReady, op_bind_ok (op_get s), if_neg hready]
    rw [exec, execEnsureReady, runAlone, h]
    rfl

/-- Settles O30: steps 1 to 6 on the card's answers, then the fast clock and READY. -/
theorem initializationCompletes : Obligations.InitializationCompletes := by
  intro s c rest i hf hc he hi
  rw [exec_initialize hi]
  rw [CardInit.answers, List.append_assoc] at he
  obtain ⟨t, n, hrun, ht⟩ := initBody_slow hf hc he
  have h7 := (talked_clock ht (.at .fast)).trans (talked_clocked .fast true rest t)
  have h8 := talked_session h7 .ready
  have hbody : initBody s = .ok () { State.clocked .fast true rest t with session := .ready } := by
    rw [hrun, initStep7, op_bind_ok (clockOrAbort_ok ht.env)]
    rfl
  refine ⟨_, runAlone_ok (settled_ok hbody), ?_⟩
  obtain ⟨hres, hlast, hseq, hcs, htrace, henv, hcause, htable, hbuilt, hparams, hclock, hreq⟩ :=
    ended_after ⟨h8.trace, h8.env, h8.cs.trans ht.cs, h8.same⟩
  exact ⟨⟨hres, hlast, hseq, hcs, htrace, henv, hcause, ⟨htable, hbuilt, hparams, hclock, hreq⟩⟩, rfl, h8.same.isHc, rfl,
    h8.same.mem⟩

/-- Settles O32: steps 1 and 2 pass, step 3 stops at the echo. -/
theorem wrongEchoFailsInitialization : Obligations.WrongEchoFailsInitialization := by
  intro s m0 m8 echo ok rest hf hm0 hm8 hecho he
  simp only [List.append_assoc, List.cons_append, List.nil_append] at he
  obtain ⟨t1, hrun1, h1⟩ := initBody_wakes he
  have hp1 : t1.params = s.params := h1.same.params
  obtain ⟨t2, hrun2, h2⟩ := initStep2_does (framing_after h1 hf) (hp1 ▸ hm0) (hp1.symm ▸ h1.env)
  have h12 := h1.trans h2
  obtain ⟨t3, hrun3, h3⟩ := initStep3_badEcho (framing_after h12 hf) (h12.same.params ▸ hm8) hecho h12.env
  have hrun : initBody s = .error (.abort .cmd8BadEcho) t3 := by
    rw [hrun1, initRest, op_bind_ok hrun2, op_bind_error hrun3]
  obtain ⟨u, hu, hfail, hclock, hisHc⟩ := initialize_fails hrun (h12.trans h3)
  refine ⟨u, hu, hfail.result, hfail.session, hfail.cause, hfail.lastOk, hisHc, hclock, hfail.env, ?_⟩
  rw [hfail.trace, hp1]
  simp

/-- Settles O33: steps 1 to 4 pass, the loop of step 5 ends at its bound. -/
theorem initializationGivesUpAfter1600Rounds : Obligations.InitializationGivesUpAfter1600Rounds := by
  intro s c ok rest hf hhead hlen hrounds he
  rw [List.append_assoc] at he
  obtain ⟨t1, hrun1, h1⟩ := initBody_head hf hhead he
  have hp1 : t1.params = s.params := h1.same.params
  obtain ⟨t2, hrun2, h2⟩ := initStep5_gives_up (framing_after h1 hf) h1.cs hlen (hp1 ▸ hrounds) (hp1 ▸ h1.env)
  have hrun : initBody s = .error (.abort .initTimeout) t2 := by rw [hrun1, initTail, op_bind_error hrun2]
  obtain ⟨u, hu, hfail, -, hisHc⟩ := initialize_fails hrun ((talked_iter h1 t2.iter).trans h2)
  refine ⟨u, hu, hfail.result, hfail.session, hfail.cause, hisHc, hfail.env, ?_⟩
  rw [hfail.trace, hp1]
  simp

end Sys2Proof.Proofs
end

section
/-! What an operation leaves whatever the environment answers, said of its outcome; initialization and the ready check
before a sector call (R150 to R162, R171, R213, R214; O31, O34). -/

namespace Sys2Proof.Proofs

open Sys2Proof.Machine Sys2Proof.Laws

/-! ### Outcomes -/

/-- The value and state an operation goes on with have one property, the stop and state it leaves the other. -/
def Upon {α : Type} (op : Op α) (s : State) (Q : α → State → Prop) (E : Stop → State → Prop) : Prop :=
  match op s with
  | .ok a t => Q a t
  | .error e t => E e t

section upon
variable {α β : Type} {x : Op α} {f : α → Op β} {s t : State} {Q Q' : α → State → Prop} {E E' : Stop → State → Prop}
  {T : β → State → Prop}

theorem upon_of_ok {a : α} (h : x s = .ok a t) : Upon x s Q E ↔ Q a t := by rw [Upon, h]

theorem upon_of_error {e : Stop} (h : x s = .error e t) : Upon x s Q E ↔ E e t := by rw [Upon, h]

theorem upon_bind : Upon (x >>= f) s T E ↔ Upon x s (fun a t => Upon (f a) t T E) E := by
  cases h : x s with
  | ok a t => rw [upon_of_ok h, Upon, op_bind_ok h]; rfl
  | error e t => rw [upon_of_error h, upon_of_error (op_bind_error h)]

theorem Upon.mono (h : Upon x s Q E) (hQ : ∀ a t, Q a t → Q' a t) (hE : ∀ e t, E e t → E' e t) : Upon x s Q' E' := by
  cases hx : x s with
  | ok a t => exact (upon_of_ok hx).2 (hQ a t ((upon_of_ok hx).1 h))
  | error e t => exact (upon_of_error hx).2 (hE e t ((upon_of_error hx).1 h))

/-- A chain, its parts told one after the other. -/
theorem Upon.bind (h : Upon x s Q E) (k : ∀ a t, Q a t → Upon (f a) t T E) : Upon (x >>= f) s T E :=
  upon_bind.2 (h.mono k fun _ _ he => he)

theorem Upon.and (h : Upon x s Q E) (h' : Upon x s Q' E') :
    Upon x s (fun a t => Q a t ∧ Q' a t) (fun e t => E e t ∧ E' e t) := by
  cases hx : x s with
  | ok a t => exact (upon_of_ok hx).2 ⟨(upon_of_ok hx).1 h, (upon_of_ok hx).1 h'⟩
  | error e t => exact (upon_of_error hx).2 ⟨(upon_of_error hx).1 h, (upon_of_error hx).1 h'⟩

theorem Upon.trivial : Upon x s (fun _ _ => True) (fun _ _ => True) := by
  cases hx : x s with
  | ok a t => exact (upon_of_ok hx).2 True.intro
  | error e t => exact (upon_of_error hx).2 True.intro

/-- What an operation keeps, as its outcome. -/
theorem upon_of_keeps {R : State → State → Prop} (h : Keeps R x) (s : State) :
    Upon x s (fun _ => R s) (fun _ => R s) := by
  have hs := h s
  cases hx : x s with
  | ok a t => rw [hx] at hs; exact (upon_of_ok hx).2 hs
  | error e t => rw [hx] at hs; exact (upon_of_error hx).2 hs

end upon

/-! ### What an initialization leaves -/

/-- One field kept. -/
theorem tolerant_of_field {β : Type} (f : State → β) (hx : ∀ pol ok e rest s, f (State.exchanged pol ok e rest s) = f s)
    (hp : ∀ n s, f { s with polls := n } = f s) (hr : ∀ s, f (State.retirePolls s) = f s) :
    Tolerant fun s t => f t = f s where
  refl _ := rfl
  trans h k := k.trans h
  exchanged pol ok e s := hx pol ok e s.env.tail s
  polls := hp
  retired := hr

theorem tolerant_session : Tolerant fun s t => t.session = s.session :=
  tolerant_of_field State.session (fun _ _ _ _ _ => rfl) (fun _ _ => rfl) fun _ => rfl

theorem tolerant_cause : Tolerant fun s t => t.cause = s.cause :=
  tolerant_of_field State.cause (fun _ _ _ _ _ => rfl) (fun _ _ => rfl) fun _ => rfl

theorem tolerant_mem : Tolerant fun s t => t.mem = s.mem :=
  tolerant_of_field State.mem (fun _ _ _ _ _ => rfl) (fun _ _ => rfl) fun _ => rfl

theorem tolerant_fixed : Tolerant SameFixed where
  refl _ := ⟨rfl, rfl, rfl, rfl, rfl⟩
  trans := SameFixed.trans
  exchanged _ _ _ _ := ⟨rfl, rfl, rfl, rfl, rfl⟩
  polls _ _ := ⟨rfl, rfl, rfl, rfl, rfl⟩
  retired _ := ⟨rfl, rfl, rfl, rfl, rfl⟩

theorem fixed_abort (c : AbortCause) (s : State) : SameFixed s (s.abort c) := by
  obtain ⟨ok, h⟩ := abort_cases c s
  rw [h]
  exact ⟨rfl, rfl, rfl, rfl, rfl⟩

theorem mem_abort (c : AbortCause) (s : State) : (s.abort c).mem = s.mem := by
  obtain ⟨ok, h⟩ := abort_cases c s
  rw [h]
  rfl

/-- A release that goes on leaves chip-select deasserted (R145). -/
theorem release_upon (s : State) :
    Upon release s (fun _ t => t.cs = .deasserted ∧ t.isHc = s.isHc) (fun _ _ => True) := by
  rcases writeOrAbort_cases [0xFF] .deassert s with h | h
  · exact (upon_of_ok h).2 ⟨rfl, rfl⟩
  · exact (upon_of_error h).2 True.intro

/-- R158: step 6 leaves an addressing mode and chip-select deasserted. -/
theorem initStep6_upon (s : State) :
    Upon initStep6 s (fun _ t => t.cs = .deasserted ∧ t.isHc.isSome = true) (fun _ _ => True) := by
  refine Upon.bind .trivial fun r t _ => Upon.bind (Q := fun _ u => u.isHc.isSome = true) rfl fun _ u hu => ?_
  exact (release_upon u).mono (fun _ v ⟨hcs, hisHc⟩ => ⟨hcs, hisHc ▸ hu⟩) fun _ _ h => h

/-- R159: step 7 leaves the fast clock. -/
theorem initStep7_upon (s : State) :
    Upon initStep7 s (fun _ t => t.clock = .at .fast ∧ t.cs = s.cs ∧ t.isHc = s.isHc) (fun _ _ => True) := by
  rcases clockOrAbort_cases .fast s with h | h
  · exact (upon_of_ok h).2 ⟨rfl, rfl, rfl⟩
  · exact (upon_of_error h).2 True.intro

/-- What initialization leaves when it goes on to its end (R158 to R160). -/
def BroughtUp (t : State) : Prop :=
  t.session = .ready ∧ t.isHc.isSome = true ∧ t.clock = .at .fast ∧ t.cs = .deasserted

theorem initBody_brought_up (s : State) : Upon initBody s (fun _ t => BroughtUp t) (fun _ _ => True) := by
  refine Upon.bind .trivial fun _ _ _ => Upon.bind .trivial fun _ _ _ => Upon.bind .trivial fun _ _ _ =>
    Upon.bind .trivial fun _ _ _ => Upon.bind .trivial fun _ _ _ => Upon.bind .trivial fun _ t _ =>
    (initStep6_upon t).bind fun _ u hu => (initStep7_upon u).bind fun _ v hv => ?_
  obtain ⟨hcs, hisHc⟩ := hu
  obtain ⟨hclock, hcs', hisHc'⟩ := hv
  exact ⟨rfl, hisHc'.symm ▸ hisHc, hclock, hcs'.trans hcs⟩

/-- R150, R161: an initialization that stops is still INITIALIZING. -/
theorem initBody_initializing (s : State) :
    Upon initBody s (fun _ _ => True) (fun _ t => t.session = .initializing) := by
  have hT := tolerant_session
  have part : ∀ {x : Op Unit}, Keeps (fun s t => t.session = s.session) x → ∀ t : State, t.session = .initializing →
      Upon x t (fun _ u => u.session = .initializing) (fun _ u => u.session = .initializing) :=
    fun hx t ht => (upon_of_keeps hx t).mono (fun _ _ h => h.trans ht) fun _ _ h => h.trans ht
  have hclock : ∀ rate, Keeps (fun s t => t.session = s.session) (clockOrAbort rate) :=
    Tolerant.keeps_clock fun _ _ _ => rfl
  refine Upon.bind (Q := fun _ t => t.session = .initializing) rfl fun _ t ht => ?_
  refine (part (hT.keeps_bind (hclock _) fun _ => hT.keeps_bind hT.keeps_get fun _ => hT.keeps_write _ _) t ht).bind
    fun _ t ht => (part hT.keeps_initStep2 t ht).bind fun _ t ht => (part hT.keeps_initStep3 t ht).bind fun _ t ht =>
    (part hT.keeps_initStep4 t ht).bind fun _ t ht => (part (hT.keeps_initStep5 fun _ _ => rfl) t ht).bind fun _ t ht =>
    (part (hT.keeps_initStep6 fun _ _ => rfl) t ht).bind fun _ t ht => (part (hclock _) t ht).bind fun _ t ht => ?_
  exact True.intro

/-- R236 to R239: what the abort path of an initialization leaves. -/
theorem abort_initializing {c : AbortCause} {s : State} (h : s.session = .initializing) :
    ∃ ok, (s.abort c).session = .notInitialized ∧ (s.abort c).lastOk = false ∧ (s.abort c).cause = some c ∧
      (s.abort c).seq = .idle ∧ (s.abort c).trace.getLast? = some (.write [0xFF] .deassert ok) ∧
      (s.abort c).cs = if ok then .deasserted else .unknown := by
  obtain ⟨ok, ha⟩ := abort_cases c s
  refine ⟨ok, ?_⟩
  rw [ha]
  refine ⟨by simp [sessionAfterAbort, h], rfl, rfl, rfl, by simp, ?_⟩
  cases ok <;> rfl

/-- What an initialization keeps whatever it meets (R150 to R163). -/
theorem initBody_keeps (s : State) :
    Upon initBody s (fun _ t => t.mem = s.mem ∧ SameFixed s t ∧ t.cause = s.cause)
      (fun _ t => t.mem = s.mem ∧ SameFixed s t) := by
  have hmem := upon_of_keeps (tolerant_mem.keeps_initBody (fun _ _ _ => rfl) (fun _ _ => rfl) (fun _ _ => rfl)
    fun _ _ => rfl) s
  have hfixed := upon_of_keeps (tolerant_fixed.keeps_initBody (fun _ _ _ => ⟨rfl, rfl, rfl, rfl, rfl⟩)
    (fun _ _ => ⟨rfl, rfl, rfl, rfl, rfl⟩) (fun _ _ => ⟨rfl, rfl, rfl, rfl, rfl⟩)
    fun _ _ => ⟨rfl, rfl, rfl, rfl, rfl⟩) s
  have hcause := upon_of_keeps (tolerant_cause.keeps_initBody (fun _ _ _ => rfl) (fun _ _ => rfl) (fun _ _ => rfl)
    fun _ _ => rfl) s
  exact (hmem.and (hfixed.and hcause)).mono (fun _ _ h => h) fun _ _ ⟨h1, h2, _⟩ => ⟨h1, h2⟩

/-- The two ends of an initialization (R161, R162). -/
theorem sessionInitialize_cases {s t : State} {ok : Bool} (h : sessionInitialize s = .ok ok t) :
    (ok = true ∧ ∃ u, t = u.settleOk ∧ BroughtUp u ∧ u.mem = s.mem ∧ SameFixed s u ∧ u.cause = s.cause) ∨
    (ok = false ∧ ∃ (c : AbortCause) (u : State), t = u.abort c ∧ u.session = .initializing ∧ u.mem = s.mem ∧
      SameFixed s u) := by
  have hup := initBody_brought_up s
  have hinit := initBody_initializing s
  have hkeeps := initBody_keeps s
  rw [sessionInitialize, settled] at h
  cases hb : initBody s with
  | ok a u =>
    rw [hb] at h
    rw [upon_of_ok hb] at hup hkeeps
    cases h
    exact .inl ⟨rfl, u, rfl, hup, hkeeps⟩
  | error e u =>
    rw [hb] at h
    rw [upon_of_error hb] at hinit hkeeps
    cases e with
    | abort c => cases h; exact .inr ⟨rfl, c, u, rfl, hinit, hkeeps⟩
    | fault f => cases h
    | refuse r => cases h

/-- An initialization never leaves by an abort of its own: it takes the abort path (R236). -/
theorem settled_no_abort {body : Op Unit} {c : AbortCause} {s t : State} : settled body s ≠ .error (.abort c) t := by
  unfold settled
  cases body s with
  | ok a u => nofun
  | error e u => cases e <;> nofun

/-- A settled operation that answers, run alone. -/
theorem runAlone_settled_next {body : Op Unit} {ret : Bool → Result} {s t : State}
    (h : runAlone (settled body) ret s = .next t) :
    ∃ ok u, settled body s = .ok ok u ∧ t = u.returning (ret ok) := by
  unfold runAlone at h
  cases hb : settled body s with
  | ok a u => rw [hb] at h; cases h; exact ⟨a, u, rfl, rfl⟩
  | error e u =>
    rw [hb] at h
    cases e with
    | abort c => exact absurd hb settled_no_abort
    | fault f => cases h
    | refuse r => cases h

/-- Step 1 rejected (R151). -/
theorem initBody_clock_fail {s : State} {rest : List Answer} (he : s.env = .fail :: rest) :
    ∃ t, initBody s = .error (.abort .clockRejected) t ∧
      Talked (bringingUp s .unknown s.isHc s.iter) t [.setClock .slow false] rest s.cs := by
  refine ⟨_, ?_, talked_clocked .slow false rest { s with session := .initializing }⟩
  have hstep : initStep1 { s with session := .initializing } = .error _ _ := op_bind_error (clockOrAbort_fail he)
  rw [initBody, op_bind_ok (op_update _ _), op_bind_error hstep]

/-- The wake bytes fail (R152). -/
theorem initStep1_wake_fail {s : State} {rest : List Answer} (he : s.env = okAnswer :: .fail :: rest) :
    ∃ t, initStep1 s = .error (.abort .transport) t ∧ Talked { s with clock := .at .slow } t
      [.setClock .slow true, writeFailed (List.replicate s.params.nWake 0xFF)] rest .unknown := by
  have h1 := talked_clocked .slow true (.fail :: rest) s
  have h2 := h1.trans (talked_exchanged .none false (writeFailed (List.replicate s.params.nWake 0xFF)) rest _)
  refine ⟨_, ?_, h2⟩
  rw [initStep1, op_bind_ok (clockOrAbort_ok he), op_bind_ok (op_get _), writeOrAbort_fail rfl]
  rfl

/-- Settles O31: the three failures on listed answers, and the two ends on any. -/
theorem initializationIsReadyExactlyOnOk : Obligations.InitializationIsReadyExactlyOnOk := by
  refine ⟨fun s c ok rest => ⟨fun he => ?_, fun he => ?_, fun hf hc he => ?_⟩, fun s t h => ?_⟩
  · obtain ⟨t, hrun, ht⟩ := initBody_clock_fail he
    exact initialize_fails hrun ht
  · obtain ⟨t, hrun, ht⟩ := initStep1_wake_fail (s := { s with session := .initializing }) he
    have hbody : initBody s = .error (.abort .transport) t := by
      rw [initBody, op_bind_ok (op_update _ _), op_bind_error hrun]
    exact initialize_fails hbody ht
  · obtain ⟨t, n, hrun, ht⟩ := initBody_slow hf hc he
    have h7 := (talked_clock ht .unknown).trans (talked_clocked .fast false (cleanupAnswer ok :: rest) t)
    have hbody : initBody s = .error (.abort .clockRejected) (State.clocked .fast false (cleanupAnswer ok :: rest) t) := by
      rw [hrun, initStep7, op_bind_error (clockOrAbort_fail ht.env)]
    exact initialize_fails hbody h7
  · obtain ⟨ok, u, hrun, rfl⟩ := runAlone_settled_next h
    rcases sessionInitialize_cases hrun with ⟨rfl, v, rfl, hup, hmem, hfixed, hcause⟩ | ⟨rfl, c, v, rfl, hinit, hmem, hfixed⟩
    · obtain ⟨hsess, hisHc, hclock, hcs⟩ := hup
      exact ⟨.inl ⟨rfl, hsess, rfl, hisHc, hclock, hcs, hcause⟩, rfl, hmem,
        SameFixed.trans hfixed ⟨rfl, rfl, rfl, rfl, rfl⟩⟩
    · obtain ⟨okc, hsess, hlast, hcause, hseq, htrace, hcs⟩ := abort_initializing (c := c) hinit
      refine ⟨.inr ⟨rfl, hsess, hlast, by simp [hcause], okc, htrace, hcs⟩, hseq, (mem_abort c v).trans hmem,
        SameFixed.trans hfixed (SameFixed.trans (fixed_abort c v) ⟨rfl, rfl, rfl, rfl, rfl⟩)⟩

/-! ### The ready check before a sector call -/

/-- The end of a sector call (R192, R214). -/
def sectorEnd (t : Transfer) (r : Result) : Op Result :=
  if r = .ok then pure r
  else do
    update (State.afterFailure t)
    pure r

/-- A sector call after its ready check (R213, R214). -/
def sectorAfter (t : Transfer) (ready : Bool) : Op Result :=
  (if ready then rangedTransfer t else pure .failed) >>= sectorEnd t

theorem sectorCall_eq (t : Transfer) : sectorCall t = ensureReady >>= sectorAfter t :=
  congrArg (ensureReady >>= ·) (funext fun ready => by cases ready <;> rfl)

theorem blind_sectorAfter (x : Result) (t : Transfer) (ready : Bool) :
    Blind (veiled id (fun _ => x) id) (sectorAfter t ready) := by
  refine blind_bind ?_ fun r => ?_
  · cases ready
    · exact blind_pure _
    · exact blind_rangedTransfer x t
  · unfold sectorEnd
    split
    · exact blind_pure _
    · refine blind_bind (blind_update fun s => ?_) fun _ => blind_pure _
      rcases t with ⟨dir, multi, buf, sector, count⟩
      cases dir <;> rfl

/-- What an operation run alone answers does not depend on the result before it. -/
theorem runAlone_returning {α : Type} {op : Op α} {ret : α → Result} {x : Result} {s : State}
    (h : Blind (veiled id (fun _ => x) id) op) : runAlone op ret (s.returning x) = runAlone op ret s := by
  rw [returning_eq_veiled, runAlone, runAlone, h s]
  cases op s with
  | ok a t => rfl
  | error e t =>
    cases e with
    | abort c => simp only [shifted, abort_veiled id (fun _ => x) rfl]; rfl
    | fault f => rfl
    | refuse r => rfl

/-- The ready check: READY, at once or after an initialization, or the abort path of one. -/
theorem ensureReady_cases {s t : State} {ok : Bool} (h : ensureReady s = .ok ok t) :
    (ok = true ∧ t.session = .ready ∧ (s.seq = .idle → t.seq = .idle)) ∨
    (ok = false ∧ ∃ (c : AbortCause) (u : State), t = u.abort c ∧ u.session = .initializing) := by
  rw [ensureReady, op_bind_ok (op_get s)] at h
  by_cases hready : s.session = .ready
  · rw [if_pos hready] at h
    cases h
    exact .inl ⟨rfl, hready, id⟩
  · rw [if_neg hready] at h
    rcases sessionInitialize_cases h with ⟨rfl, u, rfl, hup, -⟩ | ⟨rfl, c, u, rfl, hinit, -⟩
    · exact .inl ⟨rfl, hup.1, fun _ => rfl⟩
    · exact .inr ⟨rfl, c, u, rfl, hinit⟩

/-- The ready check run alone. -/
theorem exec_ensureReady_next {s u : State} (h : exec .ensureReady s = .next u) :
    ∃ ok t, ensureReady s = .ok ok t ∧ u = t.returning (okOrFailed ok) := by
  rw [exec, execEnsureReady, runAlone] at h
  cases he : ensureReady s with
  | ok a t => rw [he] at h; cases h; exact ⟨a, t, rfl, rfl⟩
  | error e t =>
    rw [he] at h
    cases e with
    | abort c =>
      rw [ensureReady, op_bind_ok (op_get s)] at he
      split at he
      · cases he
      · exact absurd he settled_no_abort
    | fault f => cases h
    | refuse r => cases h

theorem sectorAfter_failed (t : Transfer) (s : State) :
    sectorAfter t false s = .ok .failed (s.afterFailure t) := by
  rw [sectorAfter, if_neg (by decide), op_bind_ok (op_pure _ _), sectorEnd, if_neg (by decide), op_bind_ok (op_update _ _)]
  rfl

/-- R192, R214: what is freed of a failed call is memory. -/
theorem afterFailure_eq (t : Transfer) (s : State) :
    ∃ m n, s.afterFailure t = { s with mem := m, free := n } := by
  rcases t with ⟨dir, multi, buf, sector, count⟩
  cases dir
  · exact ⟨_, _, rfl⟩
  · exact ⟨s.mem, s.free, rfl⟩

/-- A sector call whose operands pass their checks (R215). -/
theorem exec_admitted {i : Instr} {buf : Buffer} {sector count : Word} (hcount : count ≠ 0) (hholds : buf.holds count = true)
    (hi : i = .hostRead 0 buf sector count ∨ i = .hostWrite 0 buf sector count) :
    ∃ t : Transfer, ∀ u : State, u.seq = .idle → exec i u = runAlone (sectorCall t) id u := by
  have hcheck : checkParams 0 buf count = .pass := (checkParams_nonzero buf hcount).trans (if_pos hholds)
  rcases hi with rfl | rfl
  · refine ⟨.ofCall .read buf sector count, fun u hu => ?_⟩
    rw [exec, execHostRead, whenIdle_of_idle hu]
    exact checkedSectorCall_pass hcheck
  · refine ⟨.ofCall .write buf sector count, fun u hu => ?_⟩
    rw [exec, execHostWrite, whenIdle_of_idle hu]
    exact checkedSectorCall_pass hcheck

/-- The rest of a sector call, from the state its ready check leaves. -/
theorem runAlone_sectorCall {t : Transfer} {s u : State} {ok : Bool} (h : ensureReady s = .ok ok u) :
    runAlone (sectorCall t) id s = runAlone (sectorAfter t ok) id u := by
  rw [runAlone, sectorCall_eq, op_bind_ok h]
  rfl

/-- Settles O34: the call is the ready check and then the rest of it, which does not see the result. -/
theorem sectorCallRunsTheReadyCheckFirst : Obligations.SectorCallRunsTheReadyCheckFirst := by
  intro s u buf sector count i hidle hcount hholds hi
  refine ⟨fun hready => runAlone_ok (ensureReady_ready hready), fun h hres => ?_, fun h hres => ?_⟩ <;>
    obtain ⟨t, hexec⟩ := exec_admitted hcount hholds hi <;>
    obtain ⟨ok, v, hrun, rfl⟩ := exec_ensureReady_next h <;>
    rcases ensureReady_cases hrun with ⟨rfl, hready, hseq⟩ | ⟨rfl, c, w, rfl, hinit⟩
  · rw [hexec s hidle, runAlone_sectorCall hrun, hexec (v.returning (okOrFailed true)) (hseq hidle),
      runAlone_sectorCall (ensureReady_ready (s := v.returning (okOrFailed true)) hready),
      runAlone_returning (blind_sectorAfter _ t true)]
  · cases hres
  · cases hres
  · rw [hexec s hidle, runAlone_sectorCall hrun]
    obtain ⟨okc, hsess, hlast, hcause, hseq, -, -⟩ := abort_initializing (c := c) hinit
    refine ⟨_, runAlone_ok (sectorAfter_failed t _), rfl, ?_⟩
    obtain ⟨m, n, ha⟩ := afterFailure_eq t (w.abort c)
    rw [ha]
    exact ⟨rfl, rfl, hsess, rfl, hlast, hseq, rfl, rfl, rfl⟩

end Sys2Proof.Proofs
end

section
/-! Sector transfers on the answers of a card: blocks received, blocks sent (R176, R179 to R183, R187, R188; O36). -/

namespace Sys2Proof.Proofs

open Sys2Proof.Machine Sys2Proof.Laws

/-! ### Blocks -/

/-- What a sector transfer writes of the state besides its calls: the buffer (R179) and the sector counter (R31). -/
abbrev moving (s : State) (m : Memory) (n : Nat) : State := { s with mem := m, k := n }

theorem talked_moving {s t : State} {es : List Event} {rest : List Answer} {cs : ChipSelect} (h : Talked s t es rest cs)
    (m : Memory) (n : Nat) : Talked (moving s m n) (moving t m n) es rest cs :=
  ⟨h.trace, h.env, h.cs, { h.same with mem := rfl, k := rfl }⟩

theorem talked_k {s t : State} {es : List Event} {rest : List Answer} {cs : ChipSelect} (h : Talked s t es rest cs)
    (n : Nat) : Talked { s with k := n } { t with k := n } es rest cs :=
  ⟨h.trace, h.env, h.cs, { h.same with k := rfl }⟩

/-- Bytes stored one stretch after the other. -/
theorem writeBytes_append (m : Memory) (a : Nat) (xs ys : List Byte) :
    m.writeBytes a (xs ++ ys) = (m.writeBytes a xs).writeBytes (a + xs.length) ys := by
  induction xs generalizing m a with
  | nil => rfl
  | cons x xs ih =>
    rw [List.cons_append, Memory.writeBytes, ih, Memory.writeBytes, List.length_cons,
      show a + 1 + xs.length = a + (xs.length + 1) by omega]

theorem payload_length {c : CardBlock} {p : Params} (h : c.fits p = true) : c.payload.length = 512 := by
  simp only [CardBlock.fits, Bool.and_eq_true, beq_iff_eq] at h
  exact h.1.2

/-- R176, R179: the blocks a card sends, each into its place. -/
theorem receiveBlocks_ok {blocks : List CardBlock} {buf : Buffer} {k : Nat} {s : State} {rest : List Answer} (left : Nat)
    (he : s.env = (blocks.map CardBlock.answers).flatten ++ rest) (hfit : ∀ c ∈ blocks, c.fits s.params = true) :
    ∃ t, receiveBlocks buf k (blocks.length + left) s = receiveBlocks buf (k + blocks.length) left t ∧
      Talked (moving s (s.mem.writeBytes (buf.base + 512 * k) (blocks.map CardBlock.payload).flatten) t.k) t
        (blocks.map CardBlock.events).flatten rest s.cs := by
  induction blocks generalizing k s with
  | nil =>
    have h0 := Talked.nothing s
    rw [he] at h0
    exact ⟨s, by simp, h0⟩
  | cons c blocks ih =>
    obtain ⟨hc, hfit⟩ := List.forall_mem_cons.1 hfit
    rw [List.map_cons, List.flatten_cons, List.append_assoc] at he
    obtain ⟨t, hrun, hmem, ht⟩ := receiveBlock_ok (buf := buf) (off := Config.sectorSize * k) (s := { s with k := k }) he hc
    have hp : t.params = s.params := ht.same.params
    obtain ⟨u, hrun', hu⟩ := ih (k := k + 1) ht.env (hp ▸ hfit)
    have hstored : t.mem = s.mem.writeBytes (buf.base + 512 * k) c.payload := hmem
    have hm : t.mem.writeBytes (buf.base + 512 * (k + 1)) (blocks.map CardBlock.payload).flatten =
        s.mem.writeBytes (buf.base + 512 * k) ((c :: blocks).map CardBlock.payload).flatten := by
      rw [List.map_cons, List.flatten_cons, writeBytes_append, payload_length hc, hstored,
        show buf.base + 512 * (k + 1) = buf.base + 512 * k + 512 by omega]
    refine ⟨u, ?_, ?_⟩
    · rw [List.length_cons, Nat.add_right_comm, receiveBlocks, op_bind_ok (op_update _ _), op_bind_ok hrun, hrun',
        show k + 1 + blocks.length = k + (blocks.length + 1) by omega]
    · rw [hm] at hu
      have h := (talked_moving ht _ u.k).trans hu
      exact ⟨h.trace, h.env, h.cs.trans ht.cs, h.same⟩

theorem accept_fits {c : CardAccept} {p : Params} (h : c.fits p = true) :
    dataAccepted c.response = true ∧ busyFits p c.busy = true := by
  simp only [CardAccept.fits, Bool.and_eq_true, beq_iff_eq] at h
  exact ⟨(dataAccepted_iff _).2 h.1, h.2⟩

/-- A block sent, answered and waited for (R181, R183, R144). -/
theorem sendBlock_accepted {token : BlockToken} {c : CardAccept} {buf : Buffer} {off : Nat} {s : State}
    {rest : List Answer} (he : s.env = c.answers ++ rest) (hc : c.fits s.params = true) :
    ∃ t u v, sendBlock token buf off s = .ok () t ∧ checkDataResponse t = .ok () u ∧ busyWait u = .ok () v ∧
      Talked s v (c.events (tokenByte token) (s.memRead buf off 512)) rest s.cs := by
  obtain ⟨hdr, hbusy⟩ := accept_fits hc
  obtain ⟨t, hrun1, h1⟩ := sendBlock_ok (token := token) (buf := buf) (off := off) (s := s)
    (rest := .ok [c.response] :: (busyAnswers c.busy ++ rest)) (by simpa [CardAccept.answers] using he)
  obtain ⟨u, hrun2, h2⟩ := checkDataResponse_ok h1.env hdr
  have h12 := h1.trans h2
  obtain ⟨v, hrun3, h3⟩ := busyWait_found h2.env (h12.same.params ▸ hbusy)
  have h13 := h12.trans h3
  refine ⟨t, u, v, hrun1, hrun2, hrun3, ?_, h13.env, h13.cs.trans (h2.cs.trans h1.cs), h13.same⟩
  simpa [CardAccept.events] using h13.trace

theorem sectors_succ (buf : Buffer) (k n : Nat) (s : State) :
    s.sectors buf k (n + 1) = s.memRead buf (512 * k) 512 :: s.sectors buf (k + 1) n := by
  simp only [State.sectors, List.range_succ_eq_map, List.map_cons, List.map_map, Nat.add_zero, List.cons.injEq, true_and]
  refine List.map_congr_left fun j _ => ?_
  simp only [Function.comp_apply]
  rw [show k + Nat.succ j = k + 1 + j by omega]

theorem memRead_of_mem {s t : State} (h : t.mem = s.mem) (buf : Buffer) (off n : Nat) :
    t.memRead buf off n = s.memRead buf off n := by rw [State.memRead, State.memRead, h]

theorem sectors_of_mem {s t : State} (h : t.mem = s.mem) (buf : Buffer) (k n : Nat) :
    t.sectors buf k n = s.sectors buf k n := by simp only [State.sectors, State.memRead, h]

/-- R187, R188: the blocks a card accepts, in order. -/
theorem writeBlocks_ok {accepts : List CardAccept} {buf : Buffer} {k : Nat} {s : State} {rest : List Answer} (left : Nat)
    (he : s.env = (accepts.map CardAccept.answers).flatten ++ rest) (hfit : ∀ c ∈ accepts, c.fits s.params = true) :
    ∃ t, writeBlocks buf k (accepts.length + left) s = writeBlocks buf (k + accepts.length) left t ∧
      Talked { s with k := t.k } t
        (List.zipWith (CardAccept.events 0xFC) (s.sectors buf k accepts.length) accepts).flatten rest s.cs := by
  induction accepts generalizing k s with
  | nil =>
    have h0 := Talked.nothing s
    rw [he] at h0
    exact ⟨s, by simp, h0⟩
  | cons c accepts ih =>
    obtain ⟨hc, hfit⟩ := List.forall_mem_cons.1 hfit
    rw [List.map_cons, List.flatten_cons, List.append_assoc] at he
    obtain ⟨t1, t2, t, hrun1, hrun2, hrun3, h⟩ := sendBlock_accepted (token := .multi) (buf := buf)
      (off := Config.sectorSize * k) (s := { s with k := k }) he hc
    have ht : Talked { s with k := k } t (c.events 0xFC (s.memRead buf (512 * k) 512)) _ s.cs := h
    have hp : t.params = s.params := ht.same.params
    have hblock : writeBlock buf k { s with k := k } = .ok () t := by
      rw [writeBlock, op_bind_ok hrun1, op_bind_ok hrun2, hrun3]
    obtain ⟨u, hrun', hu⟩ := ih (k := k + 1) ht.env (hp ▸ hfit)
    refine ⟨u, ?_, ?_⟩
    · rw [List.length_cons, Nat.add_right_comm, writeBlocks, op_bind_ok (op_update _ _), op_bind_ok hblock, hrun',
        show k + 1 + accepts.length = k + (accepts.length + 1) by omega]
    · rw [sectors_of_mem (s := s) ht.same.mem] at hu
      have h := (talked_k ht u.k).trans hu
      rw [List.length_cons, sectors_succ, List.zipWith_cons_cons, List.flatten_cons]
      exact ⟨h.trace, h.env, h.cs.trans ht.cs, h.same⟩

/-- Settles O36: the three block operations run alone. -/
theorem blocksMoveThroughTheBuffer : Obligations.BlocksMoveThroughTheBuffer := by
  intro s buf off c token dr ok rest hholds
  refine ⟨fun hc hwf he => ?_, fun he => ?_, fun hdr he => ?_, fun hdr he => ?_⟩
  · obtain ⟨t, hrun, hmem, ht⟩ := receiveBlock_ok he hc
    have hrecv : exec (.receiveBlock buf off) s = .next (t.returning .done) :=
      (runWithBuffer_fits hholds _ _ _).trans (runAlone_ok hrun)
    refine ⟨_, hrecv, rfl, received_writeBytes hwf hmem, ?_⟩
    rw [with_mem_eq_memWrite (t := t.returning .done) hmem]
    exact talked_returning ht _
  · obtain ⟨t, hrun, hres, ht⟩ := Does.runAlone (sendBlock_ok (token := token) (buf := buf) (off := off) he) fun _ => .done
    refine ⟨t, (runWithBuffer_fits hholds _ _ _).trans hrun, hres, ?_⟩
    cases token
    · exact ht
    · exact ht
  · exact Does.runAlone (checkDataResponse_ok he ((dataAccepted_iff dr).2 hdr)) _
  · have hrejected : dataAccepted dr = false := by rw [← Bool.not_eq_true, dataAccepted_iff]; exact hdr
    exact Stops.runAlone (checkDataResponse_rejected he hrejected) _

end Sys2Proof.Proofs
end

section
/-! The sector operations, alone and as the host's calls, on the answers of a card (R173 to R192, R213, R214; O37 to O43). -/

namespace Sys2Proof.Proofs

open Sys2Proof.Machine Sys2Proof.Laws

/-! ### The instruction that runs a sector operation -/

/-- The instruction answers what the sector operation leaves: OK, or FAILED with what a failed call leaves of the buffer
(R192, R213, R214). -/
def Carries (i : Instr) (s : State) (op : Op Bool) (failed : State → State) : Prop :=
  ∀ ok t, op s = .ok ok t → exec i s = .next ((if ok then t else failed t).returning (okOrFailed ok))

/-- A read run alone frees the buffer when it fails. -/
theorem runAlone_scrubOnFailure {buf : Buffer} {count : Word} {op : Op Bool} {s t : State} {ok : Bool}
    (h : op s = .ok ok t) :
    runAlone (scrubOnFailure buf count op) okOrFailed s =
      .next ((if ok then t else t.scrub buf count).returning (okOrFailed ok)) := by
  cases ok
  · exact runAlone_ok ((op_bind_ok h).trans (op_bind_ok (op_update _ _)))
  · exact runAlone_ok (op_bind_ok h)

/-- A host's sector call on a READY card, its operands checked (R213 to R215). -/
theorem carries_host {s : State} {t : Transfer} {drive : Nat} {i : Instr} (hready : s.session = .ready)
    (hexec : exec i s = checkedSectorCall drive t s) (hcheck : checkParams drive t.buf t.count = .pass)
    (hrange : Machine.inRange s.addressing t.sector = true) : Carries i s (transferOp t) (State.afterFailure t) := by
  intro ok u h
  have hranged : rangedTransfer t s = .ok (okOrFailed ok) u := by
    rw [rangedTransfer, op_bind_ok (show addressingMode s = .ok s.addressing s from rfl), if_pos hrange, op_bind_ok h]
    rfl
  rw [hexec, checkedSectorCall_pass hcheck, runAlone_sectorCall (ensureReady_ready hready)]
  cases ok
  · have hend : sectorAfter t true s = .ok .failed (u.afterFailure t) := by
      rw [sectorAfter, if_pos rfl, op_bind_ok hranged, sectorEnd, if_neg (by decide), op_bind_ok (op_update _ _)]
      rfl
    exact runAlone_ok hend
  · have hend : sectorAfter t true s = .ok .ok u := by
      rw [sectorAfter, if_pos rfl, op_bind_ok hranged, sectorEnd, if_pos (by decide)]
      rfl
    exact runAlone_ok hend

/-- R215: the range a host's call accepts. -/
theorem inRange_of {hc : Bool} {sector : Word} (h : hc = true ∨ sector.toNat ≤ 0x7FFFFF) :
    Machine.inRange hc sector = true := by
  rcases h with rfl | h
  · rfl
  · cases hc
    · have := mt (inRange_standard sector).1 (by omega)
      simpa using this
    · rfl

/-- A host's call meets these, on a READY card. -/
def HostReady (s : State) (hc : Bool) (sector : Word) : Prop :=
  s.seq = .idle ∧ s.session = .ready ∧ (hc = true ∨ sector.toNat ≤ 0x7FFFFF)

section carries
variable {s : State} {i : Instr} {buf : Buffer} {sector count : Word}

theorem carries_hostRead (hcount : count ≠ 0) (hholds : buf.holds count = true)
    (hhost : HostReady s s.addressing sector) :
    Carries (.hostRead 0 buf sector count) s (transferOp (.ofCall .read buf sector count)) (State.scrub buf count) := by
  obtain ⟨hidle, hready, hrange⟩ := hhost
  refine carries_host (t := .ofCall .read buf sector count) hready ?_
    ((checkParams_nonzero buf hcount).trans (if_pos hholds)) (inRange_of hrange)
  rw [exec, execHostRead, whenIdle_of_idle hidle]

theorem carries_hostWrite (hcount : count ≠ 0) (hholds : buf.holds count = true)
    (hhost : HostReady s s.addressing sector) :
    Carries (.hostWrite 0 buf sector count) s (transferOp (.ofCall .write buf sector count)) id := by
  obtain ⟨hidle, hready, hrange⟩ := hhost
  refine carries_host (t := .ofCall .write buf sector count) hready ?_
    ((checkParams_nonzero buf hcount).trans (if_pos hholds)) (inRange_of hrange)
  rw [exec, execHostWrite, whenIdle_of_idle hidle]

theorem ne_one_of_two_le (h : 2 ≤ count.toNat) : (count != 1) = true ∧ count ≠ 0 := by
  refine ⟨bne_iff_ne.2 ?_, ?_⟩ <;> rintro rfl <;> exact absurd h (by decide)

theorem transferOp_read (h : 2 ≤ count.toNat) :
    transferOp (.ofCall .read buf sector count) = readMulti buf sector count :=
  if_pos (ne_one_of_two_le h).1

theorem transferOp_write (h : 2 ≤ count.toNat) :
    transferOp (.ofCall .write buf sector count) = writeMulti buf sector count :=
  if_pos (ne_one_of_two_le h).1

/-- A count of 1 is the single-sector operation (R213, R214). -/
theorem transferOp_readOne : transferOp (.ofCall .read buf sector 1) = readSingle buf sector :=
  if_neg (c := ((1 : Word) != 1) = true) (t := readMulti buf sector 1) (by decide)

theorem transferOp_writeOne : transferOp (.ofCall .write buf sector 1) = writeSingle buf sector :=
  if_neg (c := ((1 : Word) != 1) = true) (t := writeMulti buf sector 1) (by decide)

theorem carries_readSingle (hholds : buf.holds 1 = true)
    (hi : i = .readSingle buf sector ∨ (i = .hostRead 0 buf sector 1 ∧ HostReady s s.addressing sector)) :
    Carries i s (readSingle buf sector) (State.scrub buf 1) := by
  rcases hi with rfl | ⟨rfl, hhost⟩
  · intro ok t h
    rw [exec, execReadSingle, runWithBuffer_fits hholds, runAlone_scrubOnFailure h]
  · rw [← transferOp_readOne]
    exact carries_hostRead (by decide) hholds hhost

theorem carries_readMulti (hholds : buf.holds count = true)
    (hi : i = .readMulti buf sector count ∨
      (i = .hostRead 0 buf sector count ∧ 2 ≤ count.toNat ∧ HostReady s s.addressing sector)) :
    Carries i s (readMulti buf sector count) (State.scrub buf count) := by
  rcases hi with rfl | ⟨rfl, hcount, hhost⟩
  · intro ok t h
    rw [exec, execReadMulti, runWithBuffer_fits hholds, runAlone_scrubOnFailure h]
  · rw [← transferOp_read hcount]
    exact carries_hostRead (ne_one_of_two_le hcount).2 hholds hhost

theorem carries_writeSingle (hholds : buf.holds 1 = true)
    (hi : i = .writeSingle buf sector ∨ (i = .hostWrite 0 buf sector 1 ∧ HostReady s s.addressing sector)) :
    Carries i s (writeSingle buf sector) id := by
  rcases hi with rfl | ⟨rfl, hhost⟩
  · intro ok t h
    rw [exec, execWriteSingle, runWithBuffer_fits hholds, runAlone_ok h, id, ite_self]
  · rw [← transferOp_writeOne]
    exact carries_hostWrite (by decide) hholds hhost

theorem carries_writeMulti (hholds : buf.holds count = true)
    (hi : i = .writeMulti buf sector count ∨
      (i = .hostWrite 0 buf sector count ∧ 2 ≤ count.toNat ∧ HostReady s s.addressing sector)) :
    Carries i s (writeMulti buf sector count) id := by
  rcases hi with rfl | ⟨rfl, hcount, hhost⟩
  · intro ok t h
    rw [exec, execWriteMulti, runWithBuffer_fits hholds, runAlone_ok h, id, ite_self]
  · rw [← transferOp_write hcount]
    exact carries_hostWrite (ne_one_of_two_le hcount).2 hholds hhost

end carries

/-! ### The ends -/

section ends
variable {i : Instr} {s t : State} {body : Op Unit} {failed : State → State} {es : List Event} {rest : List Answer}
  {m : Memory} {n : Nat}

/-- A sector operation that goes on to its end (R172). -/
theorem Carries.ended (h : Carries i s (settled body) failed) (hrun : body s = .ok () t)
    (ht : Talked (moving s m n) t es rest .deasserted) :
    ∃ u, exec i s = .next u ∧ SameSession s u ∧ u.mem = m ∧ EndedOk s u es rest := by
  have he := ended_after ht
  obtain ⟨htable, hbuilt, hparams, hclock, hreq⟩ := he.fixed
  exact ⟨_, h true _ (settled_ok hrun), ⟨ht.same.session, ht.same.isHc, ht.same.clock⟩, ht.same.mem,
    ⟨he.result, he.lastOk, he.seq, he.cs, he.trace, he.env, he.cause, ⟨htable, hbuilt, hparams, hclock, hreq⟩⟩⟩

/-- A sector operation that aborts (R236 to R239), told from the buffer it has written by then. -/
theorem Carries.aborted {c : AbortCause} {ok : Bool} {cs : ChipSelect} (h : Carries i s (settled body) failed)
    (hrun : body s = .error (.abort c) t) (ht : Talked (moving s m n) t es (cleanupAnswer ok :: rest) cs) :
    exec i s = .next ((failed (t.abort c)).returning .failed) ∧
      AbortedWith (moving s m n) ((t.abort c).returning .failed) c es ok rest :=
  ⟨h false _ (settled_abort hrun), aborted_after ht⟩

/-- A write that aborts, the buffer being only read. -/
theorem Carries.write_aborted {c : AbortCause} {ok : Bool} {cs : ChipSelect} (h : Carries i s (settled body) id)
    (hrun : body s = .error (.abort c) t) (ht : Talked { s with k := n } t es (cleanupAnswer ok :: rest) cs) :
    ∃ u, exec i s = .next u ∧ AbortedWith s u c es ok rest := by
  obtain ⟨hexec, ha⟩ := h.aborted (m := s.mem) hrun ht
  obtain ⟨htable, hbuilt, hparams, hclock, hreq⟩ := ha.fixed
  exact ⟨_, hexec, ha.result, ha.cause, ha.lastOk, ha.seq, ha.cs, ha.trace, ha.env, ha.session, ha.isHc, ha.clock, ha.mem,
    ⟨htable, hbuilt, hparams, hclock, hreq⟩⟩

end ends

/-! ### The parts of the sequences -/

section parts
variable {s : State} {sector : Word} {m : Nat} {rest : List Answer}

/-- The data command of a sector operation that the card accepts, at the sector's address (R170, R173, R175, R180, R186). -/
theorem dataPhase_begins {x : IoTx} {index : Nat} {f : Op Unit} (hx : RequiresZero x) (hindex : (Tx.io x).index = index)
    (hf : s.framing) (hm : m < s.params.nResp) (he : s.env = txAnswers s.params (.after m 0x00) ++ rest) :
    ∃ t, (do let a ← addressFor sector; let _ ← transact (.io x) a; f : Op Unit) s = f t ∧
      Talked s t (txEvents s.params index (if s.addressing then sector else sector * 512) (.after m 0x00)) rest
        .asserted := by
  subst hindex
  obtain ⟨t, hrun, ht⟩ := dataCommand_does (arg := sectorAddress s.addressing sector) hx hf hm he
  exact ⟨t, by rw [op_bind_ok (addressFor_eq sector s), op_bind_ok hrun], ht⟩

/-- The pre-erase, whatever the card replies (R185), and CMD25. -/
theorem writeMultiBody_begins {buf : Buffer} {count : Word} {r55 r23 : CardReply} (hf : s.framing)
    (h55 : r55.fits s.params.nResp = true) (h23 : r23.fits s.params.nResp = true) (hm : m < s.params.nResp)
    (he : s.env = txAnswers s.params r55 ++ (okAnswer :: (txAnswers s.params r23 ++ (okAnswer ::
      (txAnswers s.params (.after m 0x00) ++ rest))))) :
    ∃ t, writeMultiBody buf sector count s = (do writeBlocks buf 0 count.toNat; stopWrite : Op Unit) t ∧
      Talked s t (txEvents s.params 55 0 r55 ++ [releaseEvent] ++ txEvents s.params 23 count r23 ++ [releaseEvent]
        ++ txEvents s.params 25 (if s.addressing then sector else sector * 512) (.after m 0x00)) rest .asserted := by
  obtain ⟨t1, hrun1, h1⟩ := appErase_does hf h55 he
  have hp1 : t1.params = s.params := h1.same.params
  obtain ⟨t2, hrun2, h2⟩ := eraseCount_does (framing_after h1 hf) (hp1 ▸ h23) count (hp1.symm ▸ h1.env)
  rw [hp1] at h2
  have h12 := h1.trans h2
  have hp2 : t2.params = s.params := h12.same.params
  have ha2 : t2.addressing = s.addressing := by rw [State.addressing, h12.same.isHc]; rfl
  obtain ⟨t3, hrun3, h3⟩ := dataPhase_begins (x := .writeMany) (index := 25) (sector := sector)
    (f := do writeBlocks buf 0 count.toNat; stopWrite) (fun _ _ => rfl) rfl (framing_after h12 hf) (hp2 ▸ hm)
    (hp2.symm ▸ h12.env)
  refine ⟨t3, ?_, ?_⟩
  · rw [writeMultiBody, op_bind_ok hrun1, op_bind_ok hrun2]
    exact hrun3
  · rw [hp2, ha2] at h3
    simpa using h12.trans h3

end parts

/-! ### Reads -/

/-- Settles O37: CMD17, the block, the release. -/
theorem singleReadCompletes : Obligations.SingleReadCompletes := by
  intro s hc buf sector m c rest i hf haddr hwf hholds hm hfit he hi
  subst haddr
  rw [List.append_assoc] at he
  obtain ⟨t1, hrun1, h1⟩ := dataPhase_begins (x := .readOne) (index := 17) (sector := sector) (f := do receiveBlock buf 0; release)
    (fun _ _ => rfl) rfl hf hm he
  obtain ⟨t2, hrun2, hmem, h2⟩ := receiveBlock_ok (buf := buf) (off := 0) h1.env (h1.same.params.symm ▸ hfit)
  obtain ⟨t3, hrun3, h3⟩ := release_does h2.env
  have hbody : readSingleBody buf sector s = .ok () t3 := by
    rw [← hrun3, ← op_bind_ok (f := fun _ => release) hrun2]
    exact hrun1
  have h := (talked_memWrite h1 buf 0 c.payload).trans (h2.trans h3)
  obtain ⟨u, hu, hsess, hmem, hend⟩ := (carries_readSingle hholds hi).ended (m := s.mem.writeBytes (buf.base + 0) c.payload)
    (n := s.k) hbody h
  exact ⟨u, hu, hsess, received_writeBytes hwf hmem, by simpa using hend⟩

/-- Settles O38: CMD18, the blocks, the stop phase. -/
theorem multiReadCompletes : Obligations.MultiReadCompletes := by
  intro s hc buf sector count m m' blocks busy rest i hf haddr hwf hcount hholds hlen hm hm' hbusy hfit he hi
  subst haddr
  simp only [List.append_assoc] at he
  obtain ⟨t1, hrun1, h1⟩ := dataPhase_begins (x := .readMany) (index := 18) (sector := sector)
    (f := do receiveBlocks buf 0 count.toNat; stopRead) (fun _ _ => rfl) rfl hf hm he
  have hp1 : t1.params = s.params := h1.same.params
  obtain ⟨t2, hrun2, h2⟩ := receiveBlocks_ok (buf := buf) (k := 0) 0 h1.env (hp1.symm ▸ hfit)
  have h12 := (talked_moving h1 _ t2.k).trans h2
  have hp2 : t2.params = s.params := h12.same.params
  obtain ⟨t3, hrun3, h3⟩ := stopRead_does (framing_after h12 hf) (hp2 ▸ hm') (hp2.symm ▸ hbusy) (hp2.symm ▸ h12.env)
  have hblocks : receiveBlocks buf 0 count.toNat t1 = .ok () t2 := by rw [← hlen]; exact hrun2
  have hbody : readMultiBody buf sector count s = .ok () t3 := by
    rw [← hrun3, ← op_bind_ok (f := fun _ => stopRead) hblocks]
    exact hrun1
  obtain ⟨u, hu, hsess, hmem, hend⟩ := (carries_readMulti hholds (hi.imp_right fun ⟨h, hh⟩ => ⟨h, hcount, hh⟩)).ended hbody
    (h12.trans h3)
  have hmem1 : t1.mem = s.mem := h1.same.mem
  refine ⟨u, hu, hsess, received_writeBytes hwf (hmem.trans (by rw [hmem1])), ?_⟩
  rw [hp2] at hend
  simpa using hend

theorem payloads_length {blocks : List CardBlock} {p : Params} (hfit : ∀ c ∈ blocks, c.fits p = true) :
    (blocks.map CardBlock.payload).flatten.length = 512 * blocks.length := by
  induction blocks with
  | nil => rfl
  | cons c blocks ih =>
    obtain ⟨hc, hfit⟩ := List.forall_mem_cons.1 hfit
    rw [List.map_cons, List.flatten_cons, List.length_append, payload_length hc, ih hfit, List.length_cons]
    omega

/-- Settles O43: the blocks before it, the wrong token, the cleanup. -/
theorem wrongTokenEndsMultiReadWithoutStop : Obligations.WrongTokenEndsMultiReadWithoutStop := by
  intro s hc buf sector count m w blocks b ok rest i hf haddr hholds hlen hm hfit hw hb hb' he hi
  subst haddr
  simp only [List.append_assoc] at he
  obtain ⟨t1, hrun1, h1⟩ := dataPhase_begins (x := .readMany) (index := 18) (sector := sector)
    (f := do receiveBlocks buf 0 count.toNat; stopRead) (fun _ _ => rfl) rfl hf hm he
  have hp1 : t1.params = s.params := h1.same.params
  obtain ⟨left, hleft⟩ : ∃ left, count.toNat = blocks.length + (left + 1) := ⟨count.toNat - blocks.length - 1, by omega⟩
  obtain ⟨t2, hrun2, h2⟩ := receiveBlocks_ok (buf := buf) (k := 0) (left + 1) h1.env (hp1.symm ▸ hfit)
  have h12 := (talked_moving h1 _ t2.k).trans h2
  have hp2 : t2.params = s.params := h12.same.params
  have hp2' : ({ t2 with k := blocks.length } : State).params = s.params := hp2
  obtain ⟨t3, hrun3, h3⟩ := pollToken_wrong (s := { t2 with k := blocks.length }) (hp2'.symm ▸ hw) hb hb' h12.env
  have hblock : receiveBlocks buf (0 + blocks.length) (left + 1) t2 = .error (.abort .badToken) t3 := by
    rw [Nat.zero_add, receiveBlocks, op_bind_ok (op_update _ _), receiveBlock, op_bind_error (op_bind_error hrun3)]
  rw [← hrun2, ← hleft] at hblock
  have hbody : readMultiBody buf sector count s = .error (.abort .badToken) t3 := hrun1.trans (op_bind_error hblock)
  have h123 := (talked_k h12 blocks.length).trans h3
  obtain ⟨hexec, ha⟩ := (carries_readMulti hholds hi).aborted hbody h123
  refine ⟨_, hexec, rfl, ha.cause, ha.lastOk, ha.seq, ha.isHc, ha.clock, ha.env, ?_, ?_, fun a hout => ?_⟩
  · simpa using ha.session
  · simpa using ha.trace
  · have hmem : (t3.abort .badToken).mem =
        s.mem.writeBytes (buf.base + 512 * 0) (blocks.map CardBlock.payload).flatten := by
      rw [← show t1.mem = s.mem from h1.same.mem]
      exact ha.mem
    show ((t3.abort .badToken).scrub buf count).mem.read a = _
    rw [read_scrub_outside _ _ _ hout, hmem]
    refine read_writeBytes_other _ _ ?_
    rw [payloads_length hfit]
    omega

/-! ### Writes -/

/-- Settles O39: CMD24, the block from the buffer, its acceptance, the release. -/
theorem singleWriteCompletes : Obligations.SingleWriteCompletes := by
  intro s hc buf sector m c rest i hf haddr hholds hm hfit he hi
  subst haddr
  rw [List.append_assoc] at he
  obtain ⟨t1, hrun1, h1⟩ := dataPhase_begins (x := .writeOne) (index := 24) (sector := sector)
    (f := do sendBlock .single buf 0; checkDataResponse; busyWait; release) (fun _ _ => rfl) rfl hf hm he
  obtain ⟨t2, t3, t4, hrun2, hrun3, hrun4, h4⟩ := sendBlock_accepted (token := .single) (buf := buf) (off := 0) h1.env
    (h1.same.params.symm ▸ hfit)
  obtain ⟨t5, hrun5, h5⟩ := release_does h4.env
  have hbody : writeSingleBody buf sector s = .ok () t5 := by
    refine hrun1.trans ?_
    rw [op_bind_ok hrun2, op_bind_ok hrun3, op_bind_ok hrun4, hrun5]
  have hmem : t1.memRead buf 0 512 = s.memRead buf 0 512 := memRead_of_mem h1.same.mem ..
  rw [hmem] at h4
  obtain ⟨u, hu, hsess, hmem, hend⟩ := (carries_writeSingle hholds hi).ended (m := s.mem) (n := s.k) hbody
    (h1.trans (h4.trans h5))
  exact ⟨u, hu, hsess, hmem, by simpa [tokenByte] using hend⟩

/-- Settles O40: the pre-erase, CMD25, the blocks, the stop phase. -/
theorem multiWriteCompletes : Obligations.MultiWriteCompletes := by
  intro s hc buf sector count r55 r23 m accepts busy rest i hf haddr hcount hholds hlen h55 h23 hm hbusy hfit he hi
  subst haddr
  simp only [List.append_assoc, List.cons_append, List.nil_append] at he
  obtain ⟨t1, hrun1, h1⟩ := writeMultiBody_begins (sector := sector) (buf := buf) (count := count) hf h55 h23 hm he
  have hp1 : t1.params = s.params := h1.same.params
  obtain ⟨t2, hrun2, h2⟩ := writeBlocks_ok (buf := buf) (k := 0) 0 h1.env (hp1.symm ▸ hfit)
  rw [sectors_of_mem h1.same.mem] at h2
  have h12 := (talked_k h1 t2.k).trans h2
  have hp2 : t2.params = s.params := h12.same.params
  obtain ⟨t3, hrun3, h3⟩ := stopWrite_does (hp2.symm ▸ hbusy) h12.env
  have hblocks : writeBlocks buf 0 count.toNat t1 = .ok () t2 := by rw [← hlen]; exact hrun2
  have hbody : writeMultiBody buf sector count s = .ok () t3 := by rw [hrun1, op_bind_ok hblocks, hrun3]
  obtain ⟨u, hu, hsess, hmem, hend⟩ := (carries_writeMulti hholds (hi.imp_right fun ⟨h, hh⟩ => ⟨h, hcount, hh⟩)).ended
    (m := s.mem) hbody (h12.trans h3)
  rw [hlen] at hend
  exact ⟨u, hu, hsess, hmem, by simpa using hend⟩

/-- A block sent and rejected (R181). -/
theorem sendBlock_rejected {token : BlockToken} {buf : Buffer} {off : Nat} {dr : Byte} {s : State} {rest : List Answer}
    (he : s.env = okAnswer :: okAnswer :: okAnswer :: .ok [dr] :: rest) (hdr : dr.extractLsb' 0 4 ≠ 0b0101#4) :
    ∃ t u, sendBlock token buf off s = .ok () t ∧ checkDataResponse t = .error (.abort .dataRejected) u ∧
      Talked s u [wrote [tokenByte token], wrote (s.memRead buf off 512), wrote [0xFF, 0xFF], byteRead dr] rest s.cs := by
  have hrejected : dataAccepted dr = false := by rw [← Bool.not_eq_true, dataAccepted_iff]; exact hdr
  obtain ⟨t, hrun1, h1⟩ := sendBlock_ok (token := token) (buf := buf) (off := off) he
  obtain ⟨u, hrun2, h2⟩ := checkDataResponse_rejected h1.env hrejected
  have h := h1.trans h2
  exact ⟨t, u, hrun1, hrun2, h.trace, h.env, h.cs.trans h1.cs, h.same⟩

/-- Settles O41: CMD24, the block, the rejection, the cleanup. -/
theorem rejectedSingleWriteIsNotRetried : Obligations.RejectedSingleWriteIsNotRetried := by
  intro s hc buf sector m dr ok rest i hf haddr hholds hm hdr he hi
  subst haddr
  simp only [List.append_assoc, List.cons_append, List.nil_append] at he
  obtain ⟨t1, hrun1, h1⟩ := dataPhase_begins (x := .writeOne) (index := 24) (sector := sector)
    (f := do sendBlock .single buf 0; checkDataResponse; busyWait; release) (fun _ _ => rfl) rfl hf hm he
  obtain ⟨t2, t3, hrun2, hrun3, h3⟩ := sendBlock_rejected (token := .single) (buf := buf) (off := 0) h1.env hdr
  have hbody : writeSingleBody buf sector s = .error (.abort .dataRejected) t3 := by
    refine hrun1.trans ?_
    rw [op_bind_ok hrun2, op_bind_error hrun3]
  have hmem : t1.memRead buf 0 512 = s.memRead buf 0 512 := memRead_of_mem h1.same.mem ..
  rw [hmem] at h3
  exact (carries_writeSingle hholds hi).write_aborted (n := s.k) hbody (h1.trans h3)

/-- Settles O42: the blocks before it, the rejected one, the cleanup. -/
theorem rejectedMultiWriteSendsNoStopToken : Obligations.RejectedMultiWriteSendsNoStopToken := by
  intro s hc buf sector count r55 r23 m accepts dr ok rest i hf haddr hholds hlen h55 h23 hm hfit hdr he hi
  subst haddr
  simp only [List.append_assoc, List.cons_append, List.nil_append] at he
  obtain ⟨t1, hrun1, h1⟩ := writeMultiBody_begins (sector := sector) (buf := buf) (count := count) hf h55 h23 hm he
  have hp1 : t1.params = s.params := h1.same.params
  obtain ⟨left, hleft⟩ : ∃ left, count.toNat = accepts.length + (left + 1) := ⟨count.toNat - accepts.length - 1, by omega⟩
  obtain ⟨t2, hrun2, h2⟩ := writeBlocks_ok (buf := buf) (k := 0) (left + 1) h1.env (hp1.symm ▸ hfit)
  rw [sectors_of_mem h1.same.mem] at h2
  have h12 := talked_k ((talked_k h1 t2.k).trans h2) accepts.length
  obtain ⟨t3, t4, hrun3, hrun4, h4⟩ := sendBlock_rejected (s := { t2 with k := accepts.length }) (token := .multi)
    (buf := buf) (off := Config.sectorSize * accepts.length) h12.env hdr
  have hblock : writeBlocks buf (0 + accepts.length) (left + 1) t2 = .error (.abort .dataRejected) t4 := by
    rw [Nat.zero_add, writeBlocks, op_bind_ok (op_update _ _), writeBlock,
      op_bind_error ((op_bind_ok hrun3).trans (op_bind_error hrun4))]
  rw [← hrun2, ← hleft] at hblock
  have hbody : writeMultiBody buf sector count s = .error (.abort .dataRejected) t4 :=
    hrun1.trans (op_bind_error hblock)
  rw [memRead_of_mem (s := s) h12.same.mem] at h4
  obtain ⟨u, hu, ha⟩ := (carries_writeMulti hholds hi).write_aborted hbody (h12.trans h4)
  exact ⟨u, hu, by simpa [tokenByte, Config.sectorSize] using ha⟩

end Sys2Proof.Proofs
end

section
/-! How a sector operation fails, whatever the environment answers (R172, R236, R238; O44). -/

namespace Sys2Proof.Proofs

open Sys2Proof.Machine Sys2Proof.Laws

/-- The steps of a sector operation (R173 to R190). -/
def transferBody (t : Transfer) : Op Unit :=
  match t.dir with
  | .read => if t.multi then readMultiBody t.buf t.sector t.count else readSingleBody t.buf t.sector
  | .write => if t.multi then writeMultiBody t.buf t.sector t.count else writeSingleBody t.buf t.sector

theorem transferOp_eq (t : Transfer) : transferOp t = settled (transferBody t) := by
  rcases t with ⟨dir, multi, buf, sector, count⟩
  cases dir <;> cases multi <;> rfl

/-- What is tolerated besides the calls holds across the steps of a sector operation. -/
theorem keeps_transferBody {R : State → State → Prop} (hR : Tolerant R) (t : Transfer)
    (index : ∀ n s, R s { s with k := n }) (stored : ∀ off d s, R s (s.memWrite t.buf off d)) : Keeps R (transferBody t) := by
  rcases t with ⟨dir, multi, buf, sector, count⟩
  cases dir <;> cases multi
  · exact hR.keeps_readSingleBody buf sector fun d s _ => stored _ d s
  · exact hR.keeps_readMultiBody buf sector count index fun _ d s _ _ => stored _ d s
  · exact hR.keeps_writeSingleBody buf sector
  · exact hR.keeps_writeMultiBody buf sector count index

theorem tolerant_sameSession : Tolerant SameSession where
  refl _ := ⟨rfl, rfl, rfl⟩
  trans h k := ⟨k.session.trans h.session, k.isHc.trans h.isHc, k.clock.trans h.clock⟩
  exchanged _ _ _ _ := ⟨rfl, rfl, rfl⟩
  polls _ _ := ⟨rfl, rfl, rfl⟩
  retired _ := ⟨rfl, rfl, rfl⟩

/-- A settled operation that answers FAILED took the abort path (R236). -/
theorem settled_false {body : Op Unit} {s t : State} (h : settled body s = .ok false t) :
    ∃ c u, body s = .error (.abort c) u ∧ t = u.abort c := by
  unfold settled at h
  cases hb : body s with
  | ok a u => rw [hb] at h; cases h
  | error e u =>
    rw [hb] at h
    cases e with
    | abort c => cases h; exact ⟨c, u, rfl, rfl⟩
    | fault f => cases h
    | refuse r => cases h

/-- A sector operation that fails: the abort path, the session's record as it was till then. -/
theorem transferOp_false {t : Transfer} {s v : State} (h : transferOp t s = .ok false v) :
    ∃ c u, v = u.abort c ∧ SameSession s u := by
  rw [transferOp_eq] at h
  obtain ⟨c, u, hbody, rfl⟩ := settled_false h
  have hkeeps := upon_of_keeps (keeps_transferBody tolerant_sameSession t (fun _ _ => ⟨rfl, rfl, rfl⟩)
    fun _ _ _ => ⟨rfl, rfl, rfl⟩) s
  exact ⟨c, u, rfl, (upon_of_error hbody).1 hkeeps⟩

/-- The memory a failed call leaves is the caller's (R192): the record is that of the sector operation. -/
def FailedFrom (s t : State) : Prop :=
  ∃ (tr : Transfer) (v : State) (m : Memory) (n : Nat), transferOp tr s = .ok false v ∧
    t = ({ v with mem := m, free := n } : State).returning .failed

theorem runWithBuffer_next {α : Type} {fits : Bool} {op : Op α} {ret : α → Result} {s t : State}
    (h : runWithBuffer fits op ret s = .next t) : runAlone op ret s = .next t := by
  unfold runWithBuffer at h
  split at h
  · exact h
  · cases h

theorem okOrFailed_failed {ok : Bool} (h : okOrFailed ok = .failed) : ok = false := by
  cases ok
  · rfl
  · cases h

/-- A write run alone. -/
theorem failed_of_write {tr : Transfer} {s t : State} (h : runAlone (transferOp tr) okOrFailed s = .next t)
    (hres : t.result = .failed) : FailedFrom s t := by
  rw [transferOp_eq] at h
  obtain ⟨ok, v, hrun, rfl⟩ := runAlone_settled_next h
  obtain rfl := okOrFailed_failed hres
  exact ⟨tr, v, v.mem, v.free, transferOp_eq tr ▸ hrun, rfl⟩

/-- A read run alone. -/
theorem failed_of_read {tr : Transfer} {buf : Buffer} {count : Word} {s t : State}
    (h : runAlone (scrubOnFailure buf count (transferOp tr)) okOrFailed s = .next t) (hres : t.result = .failed) :
    FailedFrom s t := by
  cases hop : transferOp tr s with
  | ok ok v =>
    rw [runAlone_scrubOnFailure hop] at h
    cases h
    obtain rfl := okOrFailed_failed hres
    exact ⟨tr, v, _, _, hop, rfl⟩
  | error e v =>
    rw [runAlone, scrubOnFailure, op_bind_error hop] at h
    cases e with
    | abort c => rw [transferOp_eq] at hop; exact absurd hop settled_no_abort
    | fault f => cases h
    | refuse r => cases h

/-- A host's call on a READY card. -/
theorem failed_of_host {drive : Nat} {tr : Transfer} {s t : State} (hready : s.session = .ready)
    (h : checkedSectorCall drive tr s = .next t) (hres : t.result = .failed) : FailedFrom s t := by
  unfold checkedSectorCall at h
  split at h
  next r hr => cases h; cases hres
  next => cases h
  next =>
    rw [runAlone_sectorCall (ensureReady_ready hready), runAlone, sectorAfter, if_pos rfl] at h
    cases hrange : Machine.inRange s.addressing tr.sector with
    | false =>
      have hranged : rangedTransfer tr s = .ok (.rejected .outOfRange) s := by
        rw [rangedTransfer, op_bind_ok (show addressingMode s = .ok s.addressing s from rfl), hrange]; rfl
      rw [op_bind_ok hranged] at h
      cases h
      cases hres
    | true =>
      have hranged : rangedTransfer tr s = (transferOp tr >>= fun ok => pure (okOrFailed ok)) s := by
        rw [rangedTransfer, op_bind_ok (show addressingMode s = .ok s.addressing s from rfl), hrange]; rfl
      cases hop : transferOp tr s with
      | ok ok v =>
        rw [op_bind_ok (hranged.trans (op_bind_ok hop))] at h
        cases ok with
        | true => cases h; cases hres
        | false =>
          cases h
          obtain ⟨m, n, ha⟩ := afterFailure_eq tr v
          exact ⟨tr, v, m, n, hop, by rw [← ha]; rfl⟩
      | error e v =>
        rw [op_bind_error (hranged.trans (op_bind_error hop))] at h
        cases e with
        | abort c => rw [transferOp_eq] at hop; exact absurd hop settled_no_abort
        | fault f => cases h
        | refuse r => cases h

/-- Settles O44: the failure is an abort of the sector operation, whose path makes the cleanup. -/
theorem sectorFailureKeepsReadyUnlessTransport : Obligations.SectorFailureKeepsReadyUnlessTransport := by
  intro s t i buf sector count drive hready hi h hres
  have hfailed : FailedFrom s t := by
    rcases hi with rfl | rfl | rfl | rfl | rfl | rfl
    · rw [exec, execReadSingle] at h
      exact failed_of_read (tr := ⟨.read, false, buf, sector, 1⟩) (runWithBuffer_next h) hres
    · exact failed_of_read (tr := ⟨.read, true, buf, sector, count⟩) (runWithBuffer_next h) hres
    · rw [exec, execWriteSingle] at h
      exact failed_of_write (tr := ⟨.write, false, buf, sector, 1⟩) (runWithBuffer_next h) hres
    · exact failed_of_write (tr := ⟨.write, true, buf, sector, count⟩) (runWithBuffer_next h) hres
    · exact failed_of_host hready (next_of_whenIdle h).2 hres
    · exact failed_of_host hready (next_of_whenIdle h).2 hres
  obtain ⟨tr, v, m, n, hop, rfl⟩ := hfailed
  obtain ⟨c, u, rfl, hsess, hisHc, hclock⟩ := transferOp_false hop
  obtain ⟨ok, ha⟩ := abort_cases c u
  refine ⟨c, ok, ?_⟩
  rw [ha]
  refine ⟨rfl, by simp, ?_, ?_, rfl, rfl, hisHc, hclock⟩
  · simp [sessionAfterAbort, hsess, hready]
  · cases ok <;> rfl

end Sys2Proof.Proofs
end

section
/-! What an operation may write (R24, R26, R27, R30, R55, R58, R126, R262; O59, O60). -/

namespace Sys2Proof.Proofs

open Sys2Proof.Machine Sys2Proof.Laws

/-- What is written at most: the addressing mode and the clock where they may be, READY where it may be entered, the bytes
of memory stored to. -/
structure Wrote (mode clock ready : Prop) (w : Option (Buffer × Nat × Nat)) (s t : State) : Prop where
  fixed   : SameFixed s t
  grew    : ∃ es, t.trace = s.trace ++ es
  isHc    : ¬ mode → t.isHc = s.isHc
  clock   : ¬ clock → t.clock = s.clock
  session : ¬ ready → t.session = .ready → s.session = .ready
  unread  : w = none → t.mem = s.mem
  outside : ∀ x, w = some x → ∀ a, ¬ inStored a x → t.mem.read a = s.mem.read a

section wrote
variable {mode clock ready : Prop} {w : Option (Buffer × Nat × Nat)}

/-- A change of none of these fields. -/
theorem wrote_of_same {s t : State} (hfixed : SameFixed s t) (hgrew : ∃ es, t.trace = s.trace ++ es)
    (hisHc : t.isHc = s.isHc) (hclock : t.clock = s.clock) (hsess : t.session = .ready → s.session = .ready)
    (hmem : t.mem = s.mem) : Wrote mode clock ready w s t :=
  ⟨hfixed, hgrew, fun _ => hisHc, fun _ => hclock, fun _ => hsess, fun _ => hmem, fun _ _ _ _ => by rw [hmem]⟩

theorem tolerant_wrote : Tolerant (Wrote mode clock ready w) where
  refl s := wrote_of_same ⟨rfl, rfl, rfl, rfl, rfl⟩ ⟨[], (List.append_nil _).symm⟩ rfl rfl id rfl
  trans {s t u} h k := by
    obtain ⟨es, hes⟩ := h.grew
    obtain ⟨fs, hfs⟩ := k.grew
    exact ⟨SameFixed.trans h.fixed k.fixed, ⟨es ++ fs, by rw [hfs, hes, List.append_assoc]⟩,
      fun hn => (k.isHc hn).trans (h.isHc hn), fun hn => (k.clock hn).trans (h.clock hn),
      fun hn hr => h.session hn (k.session hn hr), fun hw => (k.unread hw).trans (h.unread hw),
      fun x hx a ha => (k.outside x hx a ha).trans (h.outside x hx a ha)⟩
  exchanged pol ok e s := wrote_of_same ⟨rfl, rfl, rfl, rfl, rfl⟩ ⟨[e], rfl⟩ rfl rfl id rfl
  polls n s := wrote_of_same ⟨rfl, rfl, rfl, rfl, rfl⟩ ⟨[], (List.append_nil _).symm⟩ rfl rfl id rfl
  retired s := wrote_of_same ⟨rfl, rfl, rfl, rfl, rfl⟩ ⟨[], (List.append_nil _).symm⟩ rfl rfl id rfl

/-! ### The updates -/

theorem wrote_returning (r : Result) (s : State) : Wrote mode clock ready w s (s.returning r) :=
  wrote_of_same ⟨rfl, rfl, rfl, rfl, rfl⟩ ⟨[], (List.append_nil _).symm⟩ rfl rfl id rfl

theorem wrote_settleOk (s : State) : Wrote mode clock ready w s s.settleOk :=
  wrote_of_same ⟨rfl, rfl, rfl, rfl, rfl⟩ ⟨[], (List.append_nil _).symm⟩ rfl rfl id rfl

theorem wrote_index (n : Nat) (s : State) : Wrote mode clock ready w s { s with k := n } :=
  wrote_of_same ⟨rfl, rfl, rfl, rfl, rfl⟩ ⟨[], (List.append_nil _).symm⟩ rfl rfl id rfl

theorem wrote_iter (n : Nat) (s : State) : Wrote mode clock ready w s { s with iter := n } :=
  wrote_of_same ⟨rfl, rfl, rfl, rfl, rfl⟩ ⟨[], (List.append_nil _).symm⟩ rfl rfl id rfl

theorem wrote_abort (c : AbortCause) (s : State) : Wrote mode clock ready w s (s.abort c) := by
  obtain ⟨ok, ha⟩ := abort_cases c s
  refine wrote_of_same (fixed_abort c s) ?_ ?_ ?_ ?_ (mem_abort c s) <;> rw [ha]
  · exact ⟨[_], rfl⟩
  · rfl
  · rfl
  · intro hr
    rcases sessionAfterAbort_cases c ok s.session with h | ⟨h, -⟩ <;> rw [h] at hr
    · cases hr
    · exact hr

theorem wrote_mode (hmode : mode) (v : Bool) (s : State) : Wrote mode clock ready w s { s with isHc := some v } :=
  ⟨⟨rfl, rfl, rfl, rfl, rfl⟩, ⟨[], (List.append_nil _).symm⟩, fun hn => absurd hmode hn, fun _ => rfl, fun _ h => h,
    fun _ => rfl, fun _ _ _ _ => rfl⟩

theorem wrote_clocked (hclock : clock) (rate : Rate) (ok : Bool) (rest : List Answer) (s : State) :
    Wrote mode clock ready w s (State.clocked rate ok rest s) :=
  ⟨⟨rfl, rfl, rfl, rfl, rfl⟩, ⟨[.setClock rate ok], rfl⟩, fun _ => rfl, fun hn => absurd hclock hn, fun _ h => h,
    fun _ => rfl, fun _ _ _ _ => rfl⟩

theorem wrote_session (hready : ready) (x : Session) (s : State) : Wrote mode clock ready w s { s with session := x } :=
  ⟨⟨rfl, rfl, rfl, rfl, rfl⟩, ⟨[], (List.append_nil _).symm⟩, fun _ => rfl, fun _ => rfl, fun hn => absurd hready hn,
    fun _ => rfl, fun _ _ _ _ => rfl⟩

/-- Bytes stored within the stretch that may be stored to (R55, R58). -/
theorem wrote_stored {buf : Buffer} {off n : Nat} (hw : w = some (buf, off, n)) {a : Nat} {bs : List Byte}
    (hlow : buf.base + off ≤ a) (hhigh : a + bs.length ≤ buf.base + off + n) (c : Nat) (s : State) :
    Wrote mode clock ready w s { s with mem := s.mem.writeBytes a bs, free := c } := by
  refine ⟨⟨rfl, rfl, rfl, rfl, rfl⟩, ⟨[], (List.append_nil _).symm⟩, fun _ => rfl, fun _ => rfl, fun _ h => h,
    fun h => ?_, fun x hx b hb => ?_⟩
  · rw [h] at hw; cases hw
  · rw [hx] at hw
    cases hw
    simp only [inStored] at hb
    exact read_writeBytes_other _ _ (by omega)

theorem wrote_memWrite {buf : Buffer} {off n : Nat} (hw : w = some (buf, off, n)) {o : Nat} {d : List Byte}
    (hlow : off ≤ o) (hhigh : o + d.length ≤ off + n) (s : State) : Wrote mode clock ready w s (s.memWrite buf o d) :=
  wrote_stored hw (by omega) (by omega) s.free s

theorem wrote_scrub {buf : Buffer} {count : Word} (hw : w = some (buf, 0, count.toNat * Config.sectorSize)) (s : State) :
    Wrote mode clock ready w s (s.scrub buf count) := by
  refine wrote_stored hw (by omega) ?_ _ s
  rw [List.length_map, List.length_range]
  omega

/-! ### Operations -/

/-- An operation run alone that answers a next state. -/
theorem wrote_alone {α : Type} {op : Op α} {ret : α → Result} {s t : State} (hop : Keeps (Wrote mode clock ready w) op)
    (h : runAlone op ret s = .next t) : Wrote mode clock ready w s t :=
  tolerant_wrote.runAlone_next hop wrote_abort wrote_returning h

/-- The same, the environment's next answers being given first: what is written is told without them. -/
theorem wrote_deliver {α : Type} {op : Op α} {ret : α → Result} {answers : List Answer} {s t : State}
    (hop : Keeps (Wrote mode clock ready w) op) (h : runAlone op ret (s.deliver answers) = .next t) :
    Wrote mode clock ready w s t := by
  have hdeliver : Wrote mode clock ready w s (s.deliver answers) :=
    wrote_of_same ⟨rfl, rfl, rfl, rfl, rfl⟩ ⟨[], (List.append_nil _).symm⟩ rfl rfl id rfl
  exact tolerant_wrote.trans hdeliver (wrote_alone hop h)

theorem keeps_initialize (hmode : mode) (hclock : clock) (hready : ready) :
    Keeps (Wrote mode clock ready w) sessionInitialize :=
  tolerant_wrote.keeps_settled
    (tolerant_wrote.keeps_initBody (fun rate ok s => wrote_clocked hclock rate ok _ s) wrote_iter (wrote_mode hmode)
      (wrote_session hready)) wrote_settleOk wrote_abort

theorem keeps_ensureReady (hmode : mode) (hclock : clock) (hready : ready) :
    Keeps (Wrote mode clock ready w) ensureReady := by
  refine tolerant_wrote.keeps_bind tolerant_wrote.keeps_get fun s => ?_
  split
  · exact tolerant_wrote.keeps_pure _
  · exact keeps_initialize hmode hclock hready

/-- The sector operations that read (R173 to R178). -/
theorem keeps_readOp {buf : Buffer} {count : Word} {body : Op Unit} (hw : w = some (buf, 0, count.toNat * Config.sectorSize))
    (hbody : Keeps (Wrote mode clock ready w) body) :
    Keeps (Wrote mode clock ready w) (scrubOnFailure buf count (settled body)) := by
  refine tolerant_wrote.keeps_bind (tolerant_wrote.keeps_settled hbody wrote_settleOk wrote_abort) fun ok => ?_
  cases ok
  · exact tolerant_wrote.keeps_bind (fun s => wrote_scrub hw s) fun _ => tolerant_wrote.keeps_pure _
  · exact tolerant_wrote.keeps_pure _

theorem keeps_readSingleBody {buf : Buffer} {n : Nat} (hw : w = some (buf, 0, n)) (hn : Config.sectorSize ≤ n)
    (sector : Word) : Keeps (Wrote mode clock ready w) (readSingleBody buf sector) :=
  tolerant_wrote.keeps_readSingleBody buf sector fun _ s hd => wrote_memWrite hw (by omega) (by omega) s

theorem keeps_readMultiBody {buf : Buffer} {count : Word} (hw : w = some (buf, 0, count.toNat * Config.sectorSize))
    (sector : Word) : Keeps (Wrote mode clock ready w) (readMultiBody buf sector count) := by
  refine tolerant_wrote.keeps_readMultiBody buf sector count wrote_index fun j d s hj hd =>
    wrote_memWrite hw (by omega) ?_ s
  have : Config.sectorSize * (j + 1) ≤ Config.sectorSize * count.toNat := Nat.mul_le_mul_left _ hj
  rw [hd, Nat.zero_add, Nat.mul_comm count.toNat]
  omega

/-- A host's sector call (R213, R214). -/
theorem wrote_hostCall {tr : Transfer} {drive : Nat} {s t : State} (hmode : mode) (hclock : clock) (hready : ready)
    (hw : w = match tr.dir with | .read => some (tr.buf, 0, tr.count.toNat * Config.sectorSize) | .write => none)
    (hmulti : tr.multi = (tr.count != 1)) (h : checkedSectorCall drive tr s = .next t) : Wrote mode clock ready w s t := by
  have hfailure : ∀ u : State, Wrote mode clock ready w u (u.afterFailure tr) := by
    intro u
    unfold State.afterFailure
    cases hdir : tr.dir
    · rw [hdir] at hw
      exact wrote_scrub hw u
    · exact tolerant_wrote.refl u
  have hbody : Keeps (Wrote mode clock ready w) (transferOp tr) := by
    unfold transferOp
    cases hdir : tr.dir <;> rw [hdir] at hw
    · dsimp only
      split
      · exact tolerant_wrote.keeps_settled (keeps_readMultiBody hw _) wrote_settleOk wrote_abort
      · next hone =>
        have hcount : tr.count = 1 := by
          rw [hmulti] at hone
          simpa using hone
        refine tolerant_wrote.keeps_settled (keeps_readSingleBody hw ?_ _) wrote_settleOk wrote_abort
        rw [hcount]
        exact Nat.le_refl _
    · dsimp only
      split
      · exact tolerant_wrote.keeps_settled (tolerant_wrote.keeps_writeMultiBody _ _ _ wrote_index) wrote_settleOk
          wrote_abort
      · exact tolerant_wrote.keeps_settled (tolerant_wrote.keeps_writeSingleBody _ _) wrote_settleOk wrote_abort
  have hranged : Keeps (Wrote mode clock ready w) (rangedTransfer tr) := by
    refine tolerant_wrote.keeps_bind (fun s => tolerant_wrote.refl s) fun hc => ?_
    split
    · exact tolerant_wrote.keeps_bind hbody fun _ => tolerant_wrote.keeps_pure _
    · exact tolerant_wrote.keeps_pure _
  unfold checkedSectorCall at h
  split at h
  next => cases h; exact tolerant_wrote.trans (hfailure s) (wrote_returning _ _)
  next => cases h
  next =>
    rw [sectorCall_eq] at h
    refine wrote_alone (tolerant_wrote.keeps_bind (keeps_ensureReady hmode hclock hready) fun ok => ?_) h
    refine tolerant_wrote.keeps_bind ?_ fun r => ?_
    · cases ok
      · exact tolerant_wrote.keeps_pure _
      · exact hranged
    · unfold sectorEnd
      split
      · exact tolerant_wrote.keeps_pure _
      · exact tolerant_wrote.keeps_bind (fun s => hfailure s) fun _ => tolerant_wrote.keeps_pure _

end wrote

/-! ### Every operation -/

/-- The operations that may write the addressing mode (R24): initialization, the second CMD58 and its response. -/
def setsMode (i : Instr) : Prop :=
  i = .sessionInitialize ∨ i = .ensureReady ∨ i.reachesSession = true ∨ i = .cmd58 ∨ ∃ b w, i = .r3 b w

/-- The operations that may write the clock (R30): initialization and the clock selection. -/
def setsClock (i : Instr) : Prop :=
  i = .sessionInitialize ∨ i = .ensureReady ∨ i.reachesSession = true ∨ ∃ r, i = .xferSetClock r

/-- The operations that may enter READY (R22): initialization. -/
def entersReady (i : Instr) : Prop := i = .sessionInitialize ∨ i = .ensureReady ∨ i.reachesSession = true

theorem wrote_exchanged {mode clock ready : Prop} {w : Option (Buffer × Nat × Nat)} {pol : Policy} {ok : Bool} {e : Event}
    {s : State} (r : Result) : Wrote mode clock ready w s ((State.exchanged pol ok e s.env.tail s).returning r) :=
  tolerant_wrote.trans (tolerant_wrote.exchanged pol ok e s) (wrote_returning r _)

/-- What an operation writes at most, but for the two that write the table and the one that reads the time. -/
theorem exec_wrote {i : Instr} {s t : State} (hbuild : i ≠ .buildTable) (hreset : i ≠ .resetBlock)
    (htime : i ≠ .hostTimestamp) (h : exec i s = .next t) :
    Wrote (setsMode i) (setsClock i) (entersReady i) i.storesTo s t := by
  have hR := @tolerant_wrote (setsMode i) (setsClock i) (entersReady i) i.storesTo
  cases i with
  | cmd0 => exact wrote_alone hR.keeps_initStep2 h
  | cmd8 => exact wrote_alone hR.keeps_initStep3 h
  | cmd12 => exact wrote_alone hR.keeps_stopRead h
  | cmd17 arg => exact wrote_alone (hR.keeps_transact _ arg) h
  | cmd18 arg => exact wrote_alone (hR.keeps_transact _ arg) h
  | cmd24 arg => exact wrote_alone (hR.keeps_transact _ arg) h
  | cmd25 arg => exact wrote_alone (hR.keeps_transact _ arg) h
  | cmd55 =>
    refine wrote_alone ?_ h
    split
    · exact hR.keeps_appErase
    · exact hR.keeps_appOpCond
  | cmd58 =>
    refine wrote_alone ?_ h
    split
    · exact hR.keeps_initStep6 (wrote_mode (.inr (.inr (.inr (.inl rfl)))))
    · exact hR.keeps_initStep4
  | acmd23 arg => exact wrote_alone (hR.keeps_eraseCount arg) h
  | acmd41 => exact wrote_alone hR.keeps_opCond h
  | tokenStartBlock =>
    rw [exec, execTokenStartBlock] at h
    split at h
    · exact wrote_alone (hR.keeps_write _ _) h
    · exact wrote_deliver hR.keeps_pollToken h
  | tokenStartMultiWrite =>
    rw [execTokenStartMultiWrite_eq] at h
    exact wrote_alone (hR.keeps_write _ _) h
  | tokenStopTran => exact wrote_alone hR.keeps_stopWrite h
  | dataResponseAccepted upper => exact wrote_deliver hR.keeps_checkDataResponse h
  | r1 b => exact wrote_deliver hR.keeps_pollResponse h
  | r3 b ocr =>
    refine wrote_deliver ?_ h
    split
    · exact hR.keeps_bind (hR.keeps_receiveChecked _) fun _ =>
        hR.keeps_bind (fun s => wrote_mode (.inr (.inr (.inr (.inr ⟨b, ocr, rfl⟩)))) _ s) fun _ => hR.keeps_pure _
    · exact hR.keeps_receiveChecked _
  | r7 b echo => exact wrote_deliver (hR.keeps_receiveChecked _) h
  | hostStatus drive => cases (next_of_whenIdle h).2; exact wrote_returning _ s
  | hostSync drive => cases (next_of_whenIdle h).2; exact wrote_returning _ s
  | hostTimestamp => exact absurd rfl htime
  | hostInitialize drive =>
    have h := (next_of_whenIdle h).2
    split at h
    · cases h; exact wrote_returning _ s
    · exact wrote_alone (keeps_initialize (.inr (.inr (.inl rfl))) (.inr (.inr (.inl rfl))) (.inr (.inr rfl))) h
  | hostRead drive buf sector count =>
    exact wrote_hostCall (tr := .ofCall .read buf sector count) (.inr (.inr (.inl rfl))) (.inr (.inr (.inl rfl)))
      (.inr (.inr rfl)) rfl rfl (next_of_whenIdle h).2
  | hostWrite drive buf sector count =>
    exact wrote_hostCall (tr := .ofCall .write buf sector count) (.inr (.inr (.inl rfl))) (.inr (.inr (.inl rfl)))
      (.inr (.inr rfl)) rfl rfl (next_of_whenIdle h).2
  | buildTable => exact absurd rfl hbuild
  | fold crc byte => exact wrote_alone (hR.keeps_fold crc byte) h
  | compute bytes => exact wrote_alone (hR.keeps_compute bytes) h
  | assemble index arg => exact wrote_alone (hR.keeps_assemble index arg) h
  | xferWrite bytes pol =>
    obtain ⟨ok, hx⟩ := xferWrite_cases bytes pol s
    rw [exec, execXferWrite, hx] at h
    cases h; exact wrote_exchanged _
  | xferRead n pol =>
    obtain ⟨a, hx, -⟩ := xferRead_cases n pol s
    rw [exec, execXferRead, hx] at h
    cases h; exact wrote_exchanged _
  | xferReadWrite out pol =>
    obtain ⟨a, hx, -⟩ := xferReadWrite_cases out pol s
    rw [exec, execXferReadWrite, hx] at h
    cases h; exact wrote_exchanged _
  | xferSetClock rate =>
    obtain ⟨ok, hx⟩ := xferSetClock_cases rate s
    rw [exec, execXferSetClock, hx] at h
    cases h
    exact hR.trans (wrote_clocked (.inr (.inr (.inr ⟨rate, rfl⟩))) rate ok _ s) (wrote_returning _ _)
  | sendCmd index arg shape => exact wrote_alone (hR.keeps_sendCmd index arg shape) h
  | pollResponse => exact wrote_alone hR.keeps_pollResponse h
  | pollToken => exact wrote_alone hR.keeps_pollToken h
  | busyWait => exact wrote_alone hR.keeps_busyWait h
  | release => exact wrote_alone hR.keeps_release h
  | cleanup =>
    obtain ⟨ok, hx⟩ := xferWrite_cases [0xFF] .deassert s
    rw [exec, execCleanup, hx] at h
    cases h; exact wrote_exchanged _
  | sessionInitialize => exact wrote_alone (keeps_initialize (.inl rfl) (.inl rfl) (.inl rfl)) h
  | addressFor sector => exact wrote_alone (hR.keeps_addressFor sector) h
  | ensureReady =>
    exact wrote_alone (keeps_ensureReady (.inr (.inl rfl)) (.inr (.inl rfl)) (.inr (.inl rfl))) h
  | receiveBlock buf off =>
    refine wrote_alone (hR.keeps_receiveBlock buf off fun d u hd => ?_) (runWithBuffer_next h)
    exact wrote_memWrite rfl (Nat.le_refl _) (by omega) u
  | checkDataResponse => exact wrote_alone hR.keeps_checkDataResponse h
  | sendBlock token buf off => exact wrote_alone (hR.keeps_sendBlock token buf off) (runWithBuffer_next h)
  | readSingle buf sector =>
    rw [exec, execReadSingle] at h
    refine wrote_alone (keeps_readOp ?_ (keeps_readSingleBody rfl (Nat.le_refl _) sector)) (runWithBuffer_next h)
    rw [show (1 : Word).toNat * Config.sectorSize = Config.sectorSize from Nat.one_mul _]
    rfl
  | readMulti buf sector count =>
    exact wrote_alone (keeps_readOp rfl (keeps_readMultiBody rfl sector)) (runWithBuffer_next h)
  | writeSingle buf sector =>
    rw [exec, execWriteSingle] at h
    exact wrote_alone (hR.keeps_settled (hR.keeps_writeSingleBody buf sector) wrote_settleOk wrote_abort)
      (runWithBuffer_next h)
  | writeMulti buf sector count =>
    exact wrote_alone (hR.keeps_settled (hR.keeps_writeMultiBody buf sector count wrote_index) wrote_settleOk wrote_abort)
      (runWithBuffer_next h)
  | abortPath c => cases h; exact hR.trans (wrote_abort c s) (wrote_returning _ _)
  | resetBlock => exact absurd rfl hreset

/-- The time source's answer is consumed; nothing of the block is written but the result (R217, R219). -/
theorem exec_hostTimestamp_next {s t : State} (h : exec .hostTimestamp s = .next t) :
    ∃ r cs n, t = { s with result := r, clockAnswers := cs, free := n } := by
  have h := (next_of_whenIdle h).2
  split at h <;> cases h
  unfold State.nextCalendar
  split
  · exact ⟨_, _, s.free, rfl⟩
  · exact ⟨_, s.clockAnswers, _, rfl⟩

/-- R100: the table alone is written. -/
theorem exec_buildTable_next {s t : State} (h : exec .buildTable s = .next t) :
    ∃ table, t = { s with table := table, tableBuilt := true, result := .done } := by
  rw [exec, execBuildTable, State.buildTable, State.returning] at h
  exact ⟨builtTable, (Host.Outcome.next.inj h).symm⟩

/-- Settles O59: the three operations left write no memory. -/
theorem onlyReadsStoreAndOnlyToTheBuffer : Obligations.OnlyReadsStoreAndOnlyToTheBuffer := by
  intro s t i h
  by_cases hbuild : i = .buildTable
  · subst hbuild
    obtain ⟨table, rfl⟩ := exec_buildTable_next h
    exact ⟨fun _ => rfl, fun _ hw => nomatch hw⟩
  by_cases hreset : i = .resetBlock
  · subst hreset; cases h; exact ⟨fun _ => rfl, fun _ hw => nomatch hw⟩
  by_cases htime : i = .hostTimestamp
  · subst htime
    obtain ⟨r, cs, n, rfl⟩ := exec_hostTimestamp_next h
    exact ⟨fun _ => rfl, fun _ hw => nomatch hw⟩
  have hwrote := exec_wrote hbuild hreset htime h
  exact ⟨hwrote.unread, hwrote.outside⟩

/-- Settles O60: what an operation writes at most, and the three operations left. -/
theorem onlyTheNamedOperationsWrite : Obligations.OnlyTheNamedOperationsWrite := by
  intro s t i h
  by_cases hbuild : i = .buildTable
  · subst hbuild
    obtain ⟨table, rfl⟩ := exec_buildTable_next h
    exact ⟨rfl, rfl, fun _ => rfl, fun hn => absurd rfl hn, fun _ _ _ _ _ _ => rfl, fun _ _ _ _ _ => rfl, .inl, [],
      (List.append_nil _).symm⟩
  by_cases hreset : i = .resetBlock
  · subst hreset; cases h
    exact ⟨rfl, rfl, fun _ => rfl, fun _ hn => absurd rfl hn, fun hn => absurd rfl hn, fun hn => absurd rfl hn,
      fun hr => Session.noConfusion (show Session.notInitialized = .ready from hr), [], (List.append_nil _).symm⟩
  by_cases htime : i = .hostTimestamp
  · subst htime
    obtain ⟨r, cs, n, rfl⟩ := exec_hostTimestamp_next h
    exact ⟨rfl, rfl, fun hn => absurd rfl hn, fun _ _ => ⟨rfl, rfl⟩, fun _ _ _ _ _ _ => rfl, fun _ _ _ _ _ => rfl, .inl,
      [], (List.append_nil _).symm⟩
  obtain ⟨⟨htable, hbuilt, hparams, hanswers, hreq⟩, hgrew, hisHc, hclock, hsess, -, -⟩ := exec_wrote hbuild hreset htime h
  refine ⟨hparams, hreq, fun _ => hanswers, fun _ _ => ⟨htable, hbuilt⟩, fun _ h1 h2 h3 h4 h5 => hisHc ?_,
    fun _ h1 h2 h3 h4 => hclock ?_, fun hr => ?_, hgrew⟩
  · rintro (h | h | h | h | ⟨b, w, h⟩)
    exacts [h1 h, h2 h, Bool.noConfusion (h3.symm.trans h), h4 h, h5 b w h]
  · rintro (h | h | h | ⟨r, h⟩)
    exacts [h1 h, h2 h, Bool.noConfusion (h3.symm.trans h), h4 r h]
  · by_cases he : entersReady i
    · exact .inr he
    · exact .inl (hsess he hr)

end Sys2Proof.Proofs
end

section
/-! How many transport calls an operation makes at most, and that it neither faults while the table is built nor refuses
(R50, R242, R243, R273; O57, O58). -/

namespace Sys2Proof.Proofs

open Sys2Proof.Machine Sys2Proof.Laws

/-! ### Bounded operations -/

/-- At most `n` calls were made; the parameters and the table are as they were. -/
structure Within (n : Nat) (s t : State) : Prop where
  params : t.params = s.params
  built  : t.tableBuilt = s.tableBuilt
  grew   : TraceGrew n s t

theorem Within.of_same {s t : State} (hp : t.params = s.params) (hb : t.tableBuilt = s.tableBuilt)
    (ht : t.trace = s.trace) : Within 0 s t := ⟨hp, hb, [], by simp [ht], Nat.le_refl _⟩

theorem Within.trans {m n : Nat} {s t u : State} (h : Within m s t) (k : Within n t u) : Within (m + n) s u := by
  obtain ⟨es, hes, hlen⟩ := h.grew
  obtain ⟨fs, hfs, hlen'⟩ := k.grew
  exact ⟨k.params.trans h.params, k.built.trans h.built, es ++ fs, by rw [hfs, hes, List.append_assoc],
    by rw [List.length_append]; omega⟩

theorem Within.mono {m n : Nat} {s t : State} (h : Within m s t) (hmn : m ≤ n) : Within n s t :=
  let ⟨es, hes, hlen⟩ := h.grew
  ⟨h.params, h.built, es, hes, hlen.trans hmn⟩

theorem within_exchanged (pol : Policy) (ok : Bool) (e : Event) (rest : List Answer) (s : State) :
    Within 1 s (State.exchanged pol ok e rest s) := ⟨rfl, rfl, [e], rfl, Nat.le_refl _⟩

/-- A stop with a meaning: an abort, or the fault of R243 while the table is not built. -/
def Fair (s : State) : Stop → Prop
  | .abort _ => True
  | .fault _ => s.tableBuilt = false
  | .refuse _ => False

/-- The operation makes at most `n` calls under these parameters, and stops only with a meaning. -/
def Orderly {α : Type} (p : Params) (n : Nat) (op : Op α) : Prop :=
  ∀ s, s.params = p → Upon op s (fun _ t => Within n s t) (fun e t => Within n s t ∧ Fair s e)

section orderly
variable {α β : Type} {p : Params} {m n : Nat} {x : Op α} {f : α → Op β}

theorem Orderly.mono (h : Orderly p m x) (hmn : m ≤ n) : Orderly p n x := fun s hs =>
  (h s hs).mono (fun _ _ hw => hw.mono hmn) fun _ _ ⟨hw, he⟩ => ⟨hw.mono hmn, he⟩

theorem Orderly.bind (hx : Orderly p m x) (hf : ∀ a, Orderly p n (f a)) : Orderly p (m + n) (x >>= f) := by
  intro s hs
  refine upon_bind.2 ((hx s hs).mono (fun a t hw => ?_) fun e t ⟨hw, he⟩ => ⟨hw.mono (by omega), he⟩)
  refine (hf a t (hw.params.trans hs)).mono (fun _ _ hu => hw.trans hu) fun e u ⟨hu, he⟩ => ⟨hw.trans hu, ?_⟩
  cases e with
  | abort c => trivial
  | fault g => exact hw.built.symm.trans he
  | refuse r => exact he

theorem orderly_pure (a : α) : Orderly p 0 (pure a : Op α) := fun _ _ => Within.of_same rfl rfl rfl

theorem orderly_raise (c : AbortCause) : Orderly p 0 (raise c : Op α) := fun _ _ => ⟨Within.of_same rfl rfl rfl, trivial⟩

theorem orderly_abortOn (c : Option AbortCause) : Orderly p 0 (abortOn c) := by
  cases c
  · exact orderly_pure ()
  · exact orderly_raise _

theorem orderly_require (ok : Bool) (c : AbortCause) : Orderly p 0 (require ok c) := by
  intro s _
  cases ok
  · exact ⟨Within.of_same rfl rfl rfl, trivial⟩
  · exact Within.of_same rfl rfl rfl

/-- An update of neither the parameters, the table nor the trace. -/
theorem orderly_update {g : State → State} (hp : ∀ s, (g s).params = s.params)
    (hb : ∀ s, (g s).tableBuilt = s.tableBuilt) (ht : ∀ s, (g s).trace = s.trace) : Orderly p 0 (update g) :=
  fun s _ => Within.of_same (hp s) (hb s) (ht s)

theorem Orderly.seq {k : Nat} (hx : Orderly p m x) (hf : ∀ a, Orderly p n (f a)) (h : m + n ≤ k) :
    Orderly p k (x >>= f) := (hx.bind hf).mono h

/-- An update of neither the parameters, the table nor the trace, and what follows it. -/
theorem orderly_then {g : State → State} {f : Unit → Op β} (hp : ∀ s, (g s).params = s.params)
    (hb : ∀ s, (g s).tableBuilt = s.tableBuilt) (ht : ∀ s, (g s).trace = s.trace) (hf : Orderly p n (f ())) :
    Orderly p n (update g >>= f) := (orderly_update hp hb ht).seq (fun _ => hf) (Nat.zero_add n).le

/-- A read of the state, of which the parameters are known. -/
theorem orderly_get {f : State → Op β} (hf : ∀ s, s.params = p → Orderly p n (f s)) : Orderly p n (get >>= f) :=
  fun s hs => upon_bind.2 (hf s hs s hs)

theorem orderly_write (bytes : List Byte) (pol : Policy) : Orderly p 1 (writeOrAbort bytes pol) := by
  intro s _
  rcases writeOrAbort_cases bytes pol s with h | h
  · exact (upon_of_ok h).2 (within_exchanged ..)
  · exact (upon_of_error h).2 ⟨within_exchanged .., trivial⟩

theorem orderly_read (k : Nat) (pol : Policy) : Orderly p 1 (readOrAbort k pol) := by
  intro s _
  rcases readOrAbort_cases k pol s with ⟨bs, -, h⟩ | h
  · exact (upon_of_ok h).2 (within_exchanged ..)
  · exact (upon_of_error h).2 ⟨within_exchanged .., trivial⟩

theorem orderly_clock (rate : Rate) : Orderly p 1 (clockOrAbort rate) := by
  intro s _
  rcases clockOrAbort_cases rate s with h | h
  · exact (upon_of_ok h).2 ⟨rfl, rfl, [_], rfl, Nat.le_refl _⟩
  · exact (upon_of_error h).2 ⟨⟨rfl, rfl, [_], rfl, Nat.le_refl _⟩, trivial⟩

end orderly

section parts
variable {p : Params}

theorem orderly_readByte (pol : Policy) : Orderly p 1 (readByteOrAbort pol) :=
  (orderly_read 1 pol).bind fun _ => orderly_pure _

theorem orderly_release : Orderly p 1 release := orderly_write _ _

/-! ### The polls (R141, R143, R144) -/

theorem orderly_pollResponse : Orderly p p.nResp pollResponse := by
  have loop : ∀ left, Orderly p left (pollResponseLoop left) := by
    intro left
    induction left with
    | zero => exact orderly_pure _
    | succ left ih =>
      refine (orderly_readByte _).seq (n := left)
        (fun b => orderly_then (fun _ => rfl) (fun _ => rfl) (fun _ => rfl) ?_) (by omega)
      split
      · exact ih
      · exact (orderly_pure _).mono (Nat.zero_le _)
  refine orderly_then (fun _ => rfl) (fun _ => rfl) (fun _ => rfl) (orderly_get fun s hs => ?_)
  rw [hs]
  exact (loop _).seq (fun _ => orderly_then (fun _ => rfl) (fun _ => rfl) (fun _ => rfl) (orderly_pure _)) (Nat.le_refl _)

theorem orderly_pollToken : Orderly p p.nToken pollToken := by
  have loop : ∀ left, Orderly p left (pollTokenLoop left) := by
    intro left
    induction left with
    | zero => exact orderly_raise _
    | succ left ih =>
      refine (orderly_readByte _).seq (n := left)
        (fun b => orderly_then (fun _ => rfl) (fun _ => rfl) (fun _ => rfl) ?_) (by omega)
      split
      · exact (orderly_pure _).mono (Nat.zero_le _)
      · split
        · exact ih
        · exact (orderly_raise _).mono (Nat.zero_le _)
  refine orderly_then (fun _ => rfl) (fun _ => rfl) (fun _ => rfl) (orderly_get fun s hs => ?_)
  rw [hs]
  exact (loop _).seq (fun _ => orderly_update (fun _ => rfl) (fun _ => rfl) fun _ => rfl) (Nat.le_refl _)

theorem orderly_busyWait : Orderly p p.nBusy busyWait := by
  have loop : ∀ left, Orderly p left (busyWaitLoop left) := by
    intro left
    induction left with
    | zero => exact orderly_raise _
    | succ left ih =>
      refine (orderly_readByte _).seq (n := left)
        (fun b => orderly_then (fun _ => rfl) (fun _ => rfl) (fun _ => rfl) ?_) (by omega)
      split
      · exact (orderly_pure _).mono (Nat.zero_le _)
      · exact ih
  refine orderly_then (fun _ => rfl) (fun _ => rfl) (fun _ => rfl) (orderly_get fun s hs => ?_)
  rw [hs]
  exact (loop _).seq (fun _ => orderly_update (fun _ => rfl) (fun _ => rfl) fun _ => rfl) (Nat.le_refl _)

/-! ### A command transaction (R102 to R106, R140, R142) -/

theorem orderly_fold (crc byte : Byte) : Orderly p 0 (fold crc byte) := by
  intro s _
  cases hb : s.tableBuilt with
  | true =>
    have h : fold crc byte s = .ok (foldWith s.table crc byte) s := if_pos hb
    exact (upon_of_ok h).2 (.of_same rfl rfl rfl)
  | false =>
    have h : fold crc byte s = .error (.fault .tableUnbuilt) s := by rw [fold, if_neg (by simp [hb])]
    exact (upon_of_error h).2 ⟨.of_same rfl rfl rfl, hb⟩

theorem orderly_compute (bytes : List Byte) : Orderly p 0 (compute bytes) := by
  unfold compute
  generalize (0 : Byte) = c
  induction bytes generalizing c with
  | nil => exact orderly_pure c
  | cons b bs ih => rw [List.foldlM_cons]; exact (orderly_fold c b).bind ih

theorem orderly_assemble {index : Nat} (hindex : index ≤ 63) (arg : Word) : Orderly p 0 (assemble index arg) := by
  unfold assemble
  rw [if_neg (by omega)]
  exact (orderly_compute _).bind fun _ => orderly_pure _

theorem orderly_receiveReply (shape : Shape) : Orderly p (p.nResp + 1) (receiveReply shape) := by
  refine orderly_pollResponse.bind fun resp => ?_
  match shape, resp with
  | .r1, _ => exact (orderly_pure _).mono (by omega)
  | .r5, .timeout => exact (orderly_pure _).mono (by omega)
  | .r5, .byte _ => exact (orderly_read 4 _).bind fun _ => orderly_pure _

theorem orderly_sendCmd {index : Nat} (hindex : index ≤ 63) (arg : Word) (shape : Shape) :
    Orderly p (p.nResp + 2) (sendCmd index arg shape) :=
  .mono ((orderly_assemble hindex arg).bind fun _ => (orderly_write _ _).bind fun _ => orderly_receiveReply shape) (by omega)

theorem orderly_receiveChecked (tx : Tx) : Orderly p (p.nResp + 1) (receiveChecked tx) :=
  (orderly_receiveReply _).bind fun _ => (orderly_abortOn _).bind fun _ => orderly_pure _

/-- The response of the second CMD58 (R158). -/
theorem orderly_receivePower :
    Orderly p (p.nResp + 1) (do let r ← receiveChecked (.init .ocrPower); recordCapacity r; pure r) :=
  (orderly_receiveChecked _).seq (n := 0) (fun r =>
    orderly_then (fun _ => rfl) (fun _ => rfl) (fun _ => rfl) (orderly_pure r)) (Nat.le_refl _)

theorem orderly_transact (tx : Tx) (arg : Word) : Orderly p (p.nResp + 2) (transact tx arg) :=
  (orderly_sendCmd (tx_index_le tx) arg _).bind fun _ => (orderly_abortOn _).bind fun _ => orderly_pure _

/-- A transaction with its release (R145). -/
theorem orderly_released (tx : Tx) (arg : Word) : Orderly p (p.nResp + 3) (do let r ← transact tx arg; release; pure r) :=
  (orderly_transact tx arg).bind fun _ => orderly_release.bind fun _ => orderly_pure _

theorem orderly_releasedOnly (tx : Tx) (arg : Word) : Orderly p (p.nResp + 3) (do let _ ← transact tx arg; release) :=
  (orderly_transact tx arg).bind fun _ => orderly_release

/-! ### Initialization (R150 to R160) -/

theorem orderly_initStep5 : Orderly p (1600 * (2 * (p.nResp + 3))) initStep5 := by
  have loop : ∀ left, Orderly p (left * (2 * (p.nResp + 3))) (opCondLoop left) := by
    intro left
    induction left with
    | zero => exact (orderly_raise _).mono (Nat.zero_le _)
    | succ left ih =>
      refine orderly_then (fun _ => rfl) (fun _ => rfl) (fun _ => rfl) ((orderly_released _ _).seq
        (n := p.nResp + 3 + left * (2 * (p.nResp + 3))) (fun _ => (orderly_released _ _).bind fun r => ?_)
        (by rw [Nat.add_mul]; omega))
      split
      · exact (orderly_pure _).mono (Nat.zero_le _)
      · exact ih
  exact orderly_then (fun _ => rfl) (fun _ => rfl) (fun _ => rfl) (loop _)

theorem orderly_initStep6 : Orderly p (p.nResp + 3) initStep6 :=
  (orderly_transact _ _).seq (fun _ => orderly_then (fun _ => rfl) (fun _ => rfl) (fun _ => rfl) orderly_release)
    (Nat.le_refl _)

/-- The calls of the steps of an initialization. -/
def initBound (p : Params) : Nat := 3204 * (p.nResp + 3) + 3

theorem orderly_initStep1 : Orderly p 2 initStep1 :=
  (orderly_clock _).bind fun _ => orderly_get fun _ _ => orderly_write _ _

/-- Steps 5 to 8. -/
theorem orderly_initTail : Orderly p (3201 * (p.nResp + 3) + 1) initTail :=
  orderly_initStep5.seq (n := p.nResp + 4) (fun _ => orderly_initStep6.seq (n := 1) (fun _ => (orderly_clock _).seq
    (fun _ => orderly_update (fun _ => rfl) (fun _ => rfl) fun _ => rfl) (Nat.le_refl _)) (Nat.le_refl _)) (by omega)

/-- Steps 2 to 8. -/
theorem orderly_initRest : Orderly p (3204 * (p.nResp + 3) + 1) initRest :=
  (orderly_releasedOnly _ _).seq (n := 3203 * (p.nResp + 3) + 1) (fun _ => (orderly_releasedOnly _ _).seq
    (n := 3202 * (p.nResp + 3) + 1) (fun _ => (orderly_releasedOnly _ _).seq (fun _ => orderly_initTail) (by omega))
    (by omega)) (by omega)

theorem orderly_initBody : Orderly p (initBound p) initBody :=
  orderly_then (fun _ => rfl) (fun _ => rfl) (fun _ => rfl)
    (orderly_initStep1.seq (fun _ => orderly_initRest) (by simp only [initBound]; omega))

/-! ### Sector operations (R173 to R190) -/

theorem orderly_addressFor (sector : Word) : Orderly p 0 (addressFor sector) := fun s _ =>
  (upon_of_ok (addressFor_eq sector s)).2 (.of_same rfl rfl rfl)

theorem orderly_receiveBlock (buf : Buffer) (off : Nat) : Orderly p (p.nToken + 2) (receiveBlock buf off) :=
  orderly_pollToken.seq (n := 2) (fun _ => (orderly_read _ _).seq (n := 1) (fun _ =>
    orderly_then (fun _ => rfl) (fun _ => rfl) (fun _ => rfl) ((orderly_read _ _).bind fun _ => orderly_pure _))
    (Nat.le_refl _)) (Nat.le_refl _)

theorem orderly_sendBlock (token : BlockToken) (buf : Buffer) (off : Nat) : Orderly p 3 (sendBlock token buf off) :=
  (orderly_write _ _).bind fun _ => orderly_get fun _ _ => (orderly_write _ _).bind fun _ => orderly_write _ _

theorem orderly_checkDataResponse : Orderly p 1 checkDataResponse :=
  (orderly_readByte _).bind fun _ => orderly_require _ _

theorem orderly_writeBlock (buf : Buffer) (k : Nat) : Orderly p (p.nBusy + 4) (writeBlock buf k) :=
  .mono ((orderly_sendBlock _ _ _).bind fun _ => orderly_checkDataResponse.bind fun _ => orderly_busyWait) (by omega)

theorem orderly_receiveBlocks (buf : Buffer) (k left : Nat) :
    Orderly p (left * (p.nToken + p.nBusy + 6)) (receiveBlocks buf k left) := by
  induction left generalizing k with
  | zero => exact (orderly_pure _).mono (Nat.zero_le _)
  | succ left ih =>
    exact orderly_then (fun _ => rfl) (fun _ => rfl) (fun _ => rfl)
      ((orderly_receiveBlock _ _).seq (fun _ => ih _) (by rw [Nat.succ_mul]; omega))

theorem orderly_writeBlocks (buf : Buffer) (k left : Nat) :
    Orderly p (left * (p.nToken + p.nBusy + 6)) (writeBlocks buf k left) := by
  induction left generalizing k with
  | zero => exact (orderly_pure _).mono (Nat.zero_le _)
  | succ left ih =>
    exact orderly_then (fun _ => rfl) (fun _ => rfl) (fun _ => rfl)
      ((orderly_writeBlock _ _).seq (fun _ => ih _) (by rw [Nat.succ_mul]; omega))

theorem orderly_stopRead : Orderly p (p.nResp + p.nBusy + 3) stopRead :=
  .mono ((orderly_transact _ _).bind fun _ => orderly_busyWait.bind fun _ => orderly_release) (by omega)

theorem orderly_stopWrite : Orderly p (p.nBusy + 2) stopWrite :=
  .mono ((orderly_write _ _).bind fun _ => orderly_busyWait.bind fun _ => orderly_release) (by omega)

/-- The calls of a sector operation, of any of the four forms. -/
def sectorBound (p : Params) (count : Nat) : Nat :=
  3 * (p.nResp + 3) + count * (p.nToken + p.nBusy + 6) + p.nBusy + 2

theorem orderly_readMultiBody (buf : Buffer) (sector count : Word) :
    Orderly p (sectorBound p count.toNat) (readMultiBody buf sector count) :=
  .mono ((orderly_addressFor _).bind fun _ => (orderly_transact _ _).bind fun _ => (orderly_receiveBlocks _ _ _).bind fun _ =>
    orderly_stopRead) (by simp only [sectorBound]; omega)

theorem orderly_writeMultiBody (buf : Buffer) (sector count : Word) :
    Orderly p (sectorBound p count.toNat) (writeMultiBody buf sector count) :=
  .mono ((orderly_released _ _).bind fun _ => (orderly_released _ _).bind fun _ => (orderly_addressFor _).bind fun _ =>
    (orderly_transact _ _).bind fun _ => (orderly_writeBlocks _ _ _).bind fun _ => orderly_stopWrite)
    (by simp only [sectorBound]; omega)

theorem orderly_readSingleBody (buf : Buffer) (sector : Word) : Orderly p (sectorBound p 1) (readSingleBody buf sector) :=
  .mono ((orderly_addressFor _).bind fun _ => (orderly_transact _ _).bind fun _ => (orderly_receiveBlock _ _).bind fun _ =>
    orderly_release) (by simp only [sectorBound]; omega)

theorem orderly_writeSingleBody (buf : Buffer) (sector : Word) :
    Orderly p (sectorBound p 1) (writeSingleBody buf sector) :=
  .mono ((orderly_addressFor _).bind fun _ => (orderly_transact _ _).bind fun _ => (orderly_sendBlock _ _ _).bind fun _ =>
    orderly_checkDataResponse.bind fun _ => orderly_busyWait.bind fun _ => orderly_release)
    (by simp only [sectorBound]; omega)

/-! ### The abort path (R236): one call more -/

theorem within_abort (c : AbortCause) (s : State) : Within 1 s (s.abort c) := by
  obtain ⟨ok, h⟩ := abort_cases c s
  rw [h]
  exact ⟨rfl, rfl, [_], rfl, Nat.le_refl _⟩

theorem orderly_settled {body : Op Unit} {n : Nat} (h : Orderly p n body) : Orderly p (n + 1) (settled body) := by
  intro s hs
  have hb := h s hs
  cases hrun : body s with
  | ok a t =>
    have hend : Within (n + 0) s t.settleOk := ((upon_of_ok hrun).1 hb).trans (.of_same rfl rfl rfl)
    exact (upon_of_ok (settled_ok hrun)).2 (hend.mono (by omega))
  | error e t =>
    obtain ⟨hw, he⟩ := (upon_of_error hrun).1 hb
    cases e with
    | abort c => exact (upon_of_ok (settled_abort hrun)).2 (hw.trans (within_abort c t))
    | fault f =>
      have hrun' : settled body s = .error (.fault f) t := by rw [settled, hrun]
      exact (upon_of_error hrun').2 ⟨hw.mono (by omega), he⟩
    | refuse r => exact absurd he id

theorem orderly_initialize : Orderly p (initBound p + 1) sessionInitialize := orderly_settled orderly_initBody

theorem orderly_ensureReady : Orderly p (initBound p + 1) ensureReady := by
  refine orderly_get fun s _ => ?_
  split
  · exact (orderly_pure _).mono (by omega)
  · exact orderly_initialize

theorem orderly_scrubOnFailure {buf : Buffer} {count : Word} {op : Op Bool} {n : Nat} (h : Orderly p n op) :
    Orderly p n (scrubOnFailure buf count op) := by
  refine (h.bind (n := 0) fun ok => ?_).mono (by omega)
  cases ok
  · exact orderly_then (fun _ => rfl) (fun _ => rfl) (fun _ => rfl) (orderly_pure _)
  · exact orderly_pure _

/-- A host's sector transfer: the multi-sector one unless the count is 1 (R213, R214). -/
theorem orderly_transferOp {t : Transfer} (hmulti : t.multi = (t.count != 1)) :
    Orderly p (sectorBound p t.count.toNat + 1) (transferOp t) := by
  rw [transferOp_eq]
  refine orderly_settled ?_
  rcases t with ⟨dir, multi, buf, sector, count⟩
  dsimp only at hmulti
  cases multi
  · have hcount : count = 1 := by simpa using hmulti.symm
    subst hcount
    cases dir
    · exact orderly_readSingleBody buf sector
    · exact orderly_writeSingleBody buf sector
  · cases dir
    · exact orderly_readMultiBody buf sector count
    · exact orderly_writeMultiBody buf sector count

theorem orderly_sectorCall {t : Transfer} (hmulti : t.multi = (t.count != 1)) :
    Orderly p (initBound p + 1 + (sectorBound p t.count.toNat + 1)) (sectorCall t) := by
  have hranged : Orderly p (sectorBound p t.count.toNat + 1) (rangedTransfer t) := by
    refine .mono (Orderly.bind (m := 0) (fun s _ => (upon_of_ok (show addressingMode s = .ok s.addressing s from rfl)).2
      (.of_same rfl rfl rfl)) fun hc => ?_) (Nat.zero_add _).le
    split
    · exact (orderly_transferOp hmulti).bind fun _ => orderly_pure _
    · exact (orderly_pure _).mono (by omega)
  rw [sectorCall_eq]
  refine orderly_ensureReady.bind fun ready => (Orderly.bind (n := 0) (m := sectorBound p t.count.toNat + 1) ?_ fun r => ?_)
  · cases ready
    · exact (orderly_pure _).mono (by omega)
    · exact hranged
  · unfold sectorEnd
    split
    · exact orderly_pure _
    · refine (orderly_update (fun s => ?_) (fun s => ?_) fun s => ?_).bind fun _ => orderly_pure _ <;>
        obtain ⟨m, n, h⟩ := afterFailure_eq t s <;> rw [h]

end parts

/-! ### Run alone -/

/-- An operation that stops only with a meaning answers while the table is built. -/
theorem Orderly.answers {α : Type} {op : Op α} {n : Nat} {s : State} (h : Orderly s.params n op)
    (hbuilt : s.tableBuilt = true) (ret : α → Result) : ∃ t, runAlone op ret s = .next t := by
  have hu := h s rfl
  cases hrun : op s with
  | ok a t => exact ⟨_, runAlone_ok hrun⟩
  | error e t =>
    cases e with
    | abort c => exact ⟨_, runAlone_abort hrun⟩
    | fault f => exact absurd (hbuilt.symm.trans ((upon_of_error hrun).1 hu).2) (by decide)
    | refuse r => exact absurd ((upon_of_error hrun).1 hu).2 id

/-- A settled operation or a sector call, which takes its abort path itself, makes no further call. -/
theorem Orderly.grew {α : Type} {op : Op α} {n : Nat} {ret : α → Result} {s t : State} (h : Orderly s.params n op)
    (hnext : runAlone op ret s = .next t) : TraceGrew (n + 1) s t := by
  have hu := h s rfl
  rw [runAlone] at hnext
  cases hrun : op s with
  | ok a u =>
    rw [hrun] at hnext
    cases hnext
    exact (((upon_of_ok hrun).1 hu).trans (n := 1) (Within.of_same rfl rfl rfl |>.mono (by omega))).grew
  | error e u =>
    rw [hrun] at hnext
    obtain ⟨hw, -⟩ := (upon_of_error hrun).1 hu
    cases e with
    | abort c =>
      cases hnext
      exact (hw.trans ((within_abort c u).trans (.of_same rfl rfl rfl))).grew
    | fault f => cases hnext
    | refuse r => cases hnext

/-- A sector call's multi form goes with its count, whatever the direction (R213, R214). -/
theorem checkedSectorCall_grew {drive : Nat} {tr : Transfer} {s t : State} (hmulti : tr.multi = (tr.count != 1))
    (h : checkedSectorCall drive tr s = .next t) :
    TraceGrew (initBound s.params + 1 + (sectorBound s.params tr.count.toNat + 1) + 1) s t := by
  unfold checkedSectorCall at h
  split at h
  · cases h
    obtain ⟨m, n, ha⟩ := afterFailure_eq tr s
    rw [ha]
    exact ⟨[], (List.append_nil _).symm, Nat.zero_le _⟩
  · cases h
  · exact (orderly_sectorCall hmulti).grew h

/-- Settles O57: an initialization, then a sector operation. -/
theorem transportCallsAreBounded : Obligations.TransportCallsAreBounded := by
  intro s t i drive buf sector count hi h
  have hgrew : TraceGrew (initBound s.params + 1 + (sectorBound s.params count.toNat + 1) + 1) s t := by
    rcases hi with rfl | rfl | rfl
    · have h := (next_of_whenIdle h).2
      split at h
      · cases h
        exact ⟨[], (List.append_nil _).symm, Nat.zero_le _⟩
      · obtain ⟨es, hes, hlen⟩ := orderly_initialize.grew h
        exact ⟨es, hes, by omega⟩
    · exact checkedSectorCall_grew (tr := .ofCall .read buf sector count) rfl (next_of_whenIdle h).2
    · exact checkedSectorCall_grew (tr := .ofCall .write buf sector count) rfl (next_of_whenIdle h).2
  obtain ⟨es, hes, hlen⟩ := hgrew
  refine ⟨es, hes, ?_⟩
  simp only [initBound, sectorBound] at hlen
  omega

/-- A host's sector call whose buffer is long enough (R215, R242). -/
theorem checkedSectorCall_answers {drive : Nat} {tr : Transfer} {s : State} (hmulti : tr.multi = (tr.count != 1))
    (hbuilt : s.tableBuilt = true) (hholds : tr.buf.holds tr.count = true) :
    ∃ t, checkedSectorCall drive tr s = .next t := by
  cases hcheck : checkParams drive tr.buf tr.count with
  | reject r => exact ⟨_, checkedSectorCall_reject hcheck⟩
  | bufferTooShort =>
    unfold checkParams at hcheck
    rw [if_pos hholds] at hcheck
    split at hcheck
    · cases hcheck
    · split at hcheck <;> cases hcheck
  | pass =>
    rw [checkedSectorCall_pass hcheck]
    exact (orderly_sectorCall hmulti).answers hbuilt id

theorem runWithBuffer_answers {α : Type} {fits : Bool} {op : Op α} {ret : α → Result} {n : Nat} {s : State}
    (hfits : fits = true) (hbuilt : s.tableBuilt = true) (h : Orderly s.params n op) :
    ∃ t, runWithBuffer fits op ret s = .next t := by
  rw [runWithBuffer_fits hfits]
  exact h.answers hbuilt ret

theorem commandIndices_le {index : Nat} (h : commandIndices.contains index = true) : index ≤ 63 := by
  have hall : ∀ n ∈ commandIndices, n ≤ 63 := by decide
  exact hall index (List.contains_iff_mem.1 h)

/-- Settles O58: each operation stops only with a meaning, its operands excluding the refusals. -/
theorem wellFormedOperationsAnswer : Obligations.WellFormedOperationsAnswer := by
  intro s i hwf hinv hhost htime
  have hbuilt := hinv.tableBuilt
  cases i with
  | cmd0 => exact (orderly_releasedOnly _ _).answers hbuilt _
  | cmd8 => exact (orderly_releasedOnly _ _).answers hbuilt _
  | cmd12 => exact orderly_stopRead.answers hbuilt _
  | cmd17 arg => exact (orderly_transact _ arg).answers hbuilt _
  | cmd18 arg => exact (orderly_transact _ arg).answers hbuilt _
  | cmd24 arg => exact (orderly_transact _ arg).answers hbuilt _
  | cmd25 arg => exact (orderly_transact _ arg).answers hbuilt _
  | cmd55 =>
    rw [exec, execCmd55]
    split
    · exact (orderly_released _ _).answers hbuilt _
    · exact (orderly_released _ _).answers hbuilt _
  | cmd58 =>
    rw [exec, execCmd58]
    split
    · exact orderly_initStep6.answers hbuilt _
    · exact (orderly_releasedOnly _ _).answers hbuilt _
  | acmd23 arg => exact (orderly_released _ _).answers hbuilt _
  | acmd41 => exact (orderly_released _ _).answers hbuilt _
  | tokenStartBlock =>
    rw [exec, execTokenStartBlock]
    split
    · exact (orderly_write _ _).answers hbuilt _
    · exact orderly_pollToken.answers (s := s.deliver [.ok [0xFE]]) hbuilt _
  | tokenStartMultiWrite =>
    rw [execTokenStartMultiWrite_eq]
    exact (orderly_write _ _).answers hbuilt _
  | tokenStopTran => exact orderly_stopWrite.answers hbuilt _
  | dataResponseAccepted upper => exact orderly_checkDataResponse.answers (s := s.deliver _) hbuilt _
  | r1 b => exact orderly_pollResponse.answers (s := s.deliver _) hbuilt _
  | r3 b ocr =>
    rw [exec, execR3]
    split
    · exact orderly_receivePower.answers (s := s.deliver _) hbuilt _
    · exact (orderly_receiveChecked _).answers (s := s.deliver _) hbuilt _
  | r7 b echo => exact (orderly_receiveChecked _).answers (s := s.deliver _) hbuilt _
  | hostStatus drive => rw [exec, execHostStatus, whenIdle_of_idle (hhost rfl)]; exact ⟨_, rfl⟩
  | hostSync drive => rw [exec, execHostSync, whenIdle_of_idle (hhost rfl)]; exact ⟨_, rfl⟩
  | hostTimestamp => exact absurd rfl htime
  | hostInitialize drive =>
    rw [exec, execHostInitialize, whenIdle_of_idle (hhost rfl)]
    split
    · exact ⟨_, rfl⟩
    · exact orderly_initialize.answers hbuilt _
  | hostRead drive buf sector count =>
    rw [exec, execHostRead, whenIdle_of_idle (hhost rfl)]
    exact checkedSectorCall_answers rfl hbuilt hwf
  | hostWrite drive buf sector count =>
    rw [exec, execHostWrite, whenIdle_of_idle (hhost rfl)]
    exact checkedSectorCall_answers rfl hbuilt hwf
  | buildTable => exact ⟨_, rfl⟩
  | fold crc byte => exact (orderly_fold crc byte).answers hbuilt _
  | compute bytes => exact (orderly_compute bytes).answers hbuilt _
  | assemble index arg => exact (orderly_assemble (of_decide_eq_true hwf) arg).answers hbuilt _
  | xferWrite bytes pol => exact ⟨_, rfl⟩
  | xferRead n pol => exact ⟨_, rfl⟩
  | xferReadWrite out pol => exact ⟨_, rfl⟩
  | xferSetClock rate => exact ⟨_, rfl⟩
  | sendCmd index arg shape => exact (orderly_sendCmd (commandIndices_le hwf) arg shape).answers hbuilt _
  | pollResponse => exact orderly_pollResponse.answers hbuilt _
  | pollToken => exact orderly_pollToken.answers hbuilt _
  | busyWait => exact orderly_busyWait.answers hbuilt _
  | release => exact orderly_release.answers hbuilt _
  | cleanup => exact ⟨_, rfl⟩
  | sessionInitialize => exact orderly_initialize.answers hbuilt _
  | addressFor sector => exact (orderly_addressFor sector).answers hbuilt _
  | ensureReady => exact orderly_ensureReady.answers hbuilt _
  | receiveBlock buf off => exact runWithBuffer_answers hwf hbuilt (orderly_receiveBlock buf off)
  | checkDataResponse => exact orderly_checkDataResponse.answers hbuilt _
  | sendBlock token buf off => exact runWithBuffer_answers hwf hbuilt (orderly_sendBlock token buf off)
  | readSingle buf sector =>
    rw [exec, execReadSingle]
    exact runWithBuffer_answers hwf hbuilt (orderly_scrubOnFailure (orderly_settled (orderly_readSingleBody buf sector)))
  | readMulti buf sector count =>
    exact runWithBuffer_answers (Bool.and_eq_true_iff.1 hwf).2 hbuilt
      (orderly_scrubOnFailure (orderly_settled (orderly_readMultiBody buf sector count)))
  | writeSingle buf sector =>
    rw [exec, execWriteSingle]
    exact runWithBuffer_answers hwf hbuilt (orderly_settled (orderly_writeSingleBody buf sector))
  | writeMulti buf sector count =>
    exact runWithBuffer_answers (Bool.and_eq_true_iff.1 hwf).2 hbuilt
      (orderly_settled (orderly_writeMultiBody buf sector count))
  | abortPath c => exact ⟨_, rfl⟩
  | resetBlock => exact ⟨_, rfl⟩

end Sys2Proof.Proofs
end

section
/-! The steps of the sequencer against the operations run whole (R8, R21): from each position of a transaction and of a data
phase the steps lead to what the rest of the operation gives. -/

namespace Sys2Proof.Proofs

open Sys2Proof.Machine Sys2Proof.Laws

/-! ### Properties of the runs that begin in a state -/

/-- A property of states that a step back keeps; a state whose step faults has it when `F` holds. -/
structure Backward (P : State → Prop) (F : Prop) : Prop where
  step  : ∀ {s t}, s.seq ≠ .idle → tick s = .next t → P t → P s
  fault : ∀ {s}, s.seq ≠ .idle → tick s = .fault .tableUnbuilt → F → P s

/-- Some number of steps gives this outcome. -/
def Reaches (o : Host.Outcome State Fault Refusal) (s : State) : Prop := ∃ n, runSteps n s = o

theorem backward_reaches (o : Host.Outcome State Fault Refusal) : Backward (Reaches o) (o = .fault .tableUnbuilt) where
  step hne ht := fun ⟨n, hn⟩ => ⟨n + 1, (runSteps_succ n ((step_tick hne).trans ht)).trans hn⟩
  fault hne ht hF := ⟨1, (runSteps_fault 0 ((step_tick hne).trans ht)).trans hF.symm⟩

/-! ### The position is not seen -/

/-- The operation does the same at every position. -/
def Unseen {α : Type} (op : Op α) : Prop := ∀ q, Blind (State.goto q) op

/-- What a stop asks for: the abort path's property of the state, `F` for a fault. A refusal asks for nothing: it is no stop
of an operation that has begun. -/
def Stopping (A : AbortCause → State → Prop) (F : Prop) : Stop → State → Prop
  | .abort c, t => A c t
  | .fault _, _ => F
  | .refuse _, _ => True

section leads
variable {α β : Type} {x : Op α} {f : α → Op β} {s t : State} (A : AbortCause → State → Prop) (F : Prop)

/-- The operation goes on to a state that has the property at whatever position, or stops as asked. -/
def Leads (op : Op α) (s : State) (K : α → State → Prop) : Prop :=
  Upon op s (fun a t => ∀ q, K a (t.goto q)) (Stopping A F)

variable {A F} {K K' : α → State → Prop} {L : β → State → Prop}

/-- The abort path's property does not depend on the position. -/
def Placeless (A : AbortCause → State → Prop) : Prop := ∀ q c t, A c t → A c (t.goto q)

theorem Leads.mono (h : Leads A F x s K) (hK : ∀ a t, K a t → K' a t) : Leads A F x s K' :=
  Upon.mono h (fun a _ hk q => hK a _ (hk q)) fun _ _ he => he

theorem leads_goto (hA : Placeless A) (hx : Unseen x) {q : Seq} (h : Leads A F x s K) : Leads A F x (s.goto q) K := by
  unfold Leads Upon at *
  rw [hx q s]
  cases hs : x s with
  | ok a t => rw [hs] at h; exact h
  | error e t =>
    rw [hs] at h
    cases e with
    | abort c => exact hA q c t h
    | fault g => exact h
    | refuse r => trivial

/-- A chain is split where its first part ends. -/
theorem Leads.split (hA : Placeless A) (hf : ∀ a, Unseen (f a)) (h : Leads A F (x >>= f) s L) :
    Leads A F x s fun a t => Leads A F (f a) t L :=
  (upon_bind.1 h).mono (fun a _ ht _ => leads_goto hA (hf a) ht) fun _ _ he => he

/-- An update at the head of a chain. -/
theorem leads_then {g : State → State} {f : Unit → Op β} (h : Leads A F (update g >>= f) s L) :
    Leads A F (f ()) (g s) L := upon_bind.1 h

end leads

theorem unseen_pure {α : Type} (a : α) : Unseen (pure a : Op α) := fun _ => blind_pure a

theorem Unseen.bind {α β : Type} {x : Op α} {f : α → Op β} (hx : Unseen x) (hf : ∀ a, Unseen (f a)) : Unseen (x >>= f) :=
  fun q => blind_bind (hx q) fun a => hf a q

theorem unseen_abortOn (c : Option AbortCause) : Unseen (abortOn c) := fun _ => blind_abortOn c

theorem unseen_update {g : State → State} (h : ∀ q s, g (s.goto q) = (g s).goto q) : Unseen (update g) :=
  fun q => blind_update (h q)

theorem unseen_write (bytes : List Byte) (pol : Policy) : Unseen (writeOrAbort bytes pol) :=
  fun q => blind_write (fun _ => q) id id bytes pol

theorem unseen_read (n : Nat) (pol : Policy) : Unseen (readOrAbort n pol) := fun q => blind_read (fun _ => q) id id n pol

theorem unseen_release : Unseen release := unseen_write _ _

theorem unseen_readByte (pol : Policy) : Unseen (readByteOrAbort pol) := fun q => blind_readByte (fun _ => q) id id pol

/-! ### One step -/

section steps
variable {P : State → Prop} {F : Prop} {A : AbortCause → State → Prop} {cleanup : AbortCause → Seq} {s : State}
  (hraise : ∀ c t, A c t → P (t.raised cleanup c))
include hraise

theorem stepWrite_leads {bytes : List Byte} {pol : Policy} {k : State → State}
    (h : Leads A F (writeOrAbort bytes pol) s fun _ t => P (k t)) : P (stepWrite cleanup bytes pol k s) := by
  unfold Leads Upon writeOrAbort at h
  unfold stepWrite
  generalize xferWrite bytes pol s = r at h ⊢
  rcases r with ⟨_ | _, t⟩
  · exact hraise _ _ h
  · exact h t.seq

theorem stepRead_leads {n : Nat} {pol : Policy} {k : List Byte → State → State}
    (h : Leads A F (readOrAbort n pol) s fun bs t => P (k bs t)) : P (stepRead cleanup n pol k s) := by
  unfold Leads Upon readOrAbort at h
  unfold stepRead
  generalize xferRead n pol s = r at h ⊢
  rcases r with ⟨_ | bs, t⟩
  · exact hraise _ _ h
  · exact h t.seq

theorem stepReadByte_leads {pol : Policy} {k : List Byte → State → State}
    (h : Leads A F (readByteOrAbort pol) s fun b t => ∀ bs : List Byte, bs.headD 0 = b → P (k bs t)) :
    P (stepRead cleanup 1 pol k s) := by
  refine stepRead_leads hraise (A := A) (F := F) ?_
  exact (upon_bind.1 h).mono (fun bs t ht q => ht q bs rfl) fun _ _ he => he

theorem stepClock_leads {rate : Rate} {k : State → State}
    (h : Leads A F (clockOrAbort rate) s fun _ t => P (k t)) : P (stepClock cleanup rate k s) := by
  unfold Leads Upon clockOrAbort at h
  unfold stepClock
  generalize xferSetClock rate s = r at h ⊢
  rcases r with ⟨_ | _, t⟩
  · exact hraise _ _ h
  · exact h t.seq

end steps

/-- A byte read leaves the poll counter and the parameters. -/
theorem readByte_upon (pol : Policy) (s : State) :
    Upon (readByteOrAbort pol) s (fun _ t => t.polls = s.polls ∧ t.params = s.params) (fun _ _ => True) := by
  rcases readByteOrAbort_cases pol s with ⟨b, h⟩ | h
  · exact (upon_of_ok h).2 ⟨rfl, rfl⟩
  · exact (upon_of_error h).2 trivial

/-! ### The steps of a transaction (R140 to R145) -/

/-- The frame assembled, when the table is built. -/
theorem assemble_built {index : Nat} {s : State} (hb : s.tableBuilt = true) (hi : index ≤ 63) (arg : Word) :
    assemble index arg s = .ok (frameWith s.table index arg) s := by
  have hcompute : ∀ bytes, compute bytes s = .ok (computeWith s.table bytes) s := by
    intro bytes
    unfold compute computeWith
    generalize (0 : Byte) = c
    induction bytes generalizing c with
    | nil => rfl
    | cons b bs ih =>
      rw [List.foldlM_cons, op_bind_ok (show fold c b s = .ok (foldWith s.table c b) s from if_pos hb), List.foldl_cons]
      exact ih _
  rw [assemble, if_neg (by omega), op_bind_ok (hcompute _)]
  rfl

/-- What a response poll that found a byte, or nothing, is followed by (R142). -/
def replyTail (shape : Shape) (resp : Resp) : Op Reply :=
  match shape, resp with
  | .r5, .byte _ => do
    let p ← readOrAbort 4 .none
    pure ⟨resp, some (be32OfBytes p)⟩
  | .r5, .timeout | .r1, _ => pure ⟨resp, none⟩

/-- The response part of a transaction from inside its poll, `left` reads left. -/
def pollTail (shape : Shape) (left : Nat) : Op Reply := do
  let resp ← pollResponseLoop left
  update State.retirePolls
  replyTail shape resp

/-- A response received is its poll from the counter at 0 on. -/
theorem receiveReply_eq (shape : Shape) (s : State) :
    receiveReply shape s = pollTail shape s.params.nResp s.startPoll := by
  have hpoll : pollResponse s = (do
      let resp ← pollResponseLoop s.params.nResp
      update State.retirePolls
      pure resp : Op Resp) s.startPoll := by
    rw [pollResponse, op_bind_ok (op_update _ _), op_bind_ok (op_get _)]
    rfl
  cases hloop : pollResponseLoop s.params.nResp s.startPoll with
  | error e t =>
    rw [op_bind_error hloop] at hpoll
    rw [receiveReply, op_bind_error hpoll, pollTail, op_bind_error hloop]
  | ok resp t =>
    rw [op_bind_ok hloop, op_bind_ok (op_update _ _), op_pure] at hpoll
    rw [receiveReply, op_bind_ok hpoll, pollTail, op_bind_ok hloop, op_bind_ok (op_update _ _)]
    cases shape <;> cases resp <;> rfl

theorem unseen_replyTail (shape : Shape) (resp : Resp) : Unseen (replyTail shape resp) := by
  match shape, resp with
  | .r1, _ => exact unseen_pure _
  | .r5, .timeout => exact unseen_pure _
  | .r5, .byte _ => exact (unseen_read 4 _).bind fun _ => unseen_pure _

theorem unseen_pollResponseLoop (left : Nat) : Unseen (pollResponseLoop left) := by
  induction left with
  | zero => exact unseen_pure _
  | succ left ih =>
    refine (unseen_readByte _).bind fun b => (unseen_update fun _ _ => rfl).bind fun _ => ?_
    split
    · exact ih
    · exact unseen_pure _

theorem unseen_pollTail (shape : Shape) (left : Nat) : Unseen (pollTail shape left) :=
  (unseen_pollResponseLoop left).bind fun r => (unseen_update fun _ _ => rfl).bind fun _ => unseen_replyTail shape r

/-- The end of a transaction, past its check (R145, R158). -/
def exchangeEnd (x : Exchange) (r : Reply) : Op Reply := do
  update (State.noted x r.value)
  if x.releases then do
    release
    pure ⟨r.resp, none⟩
  else pure r

/-- A transaction from its check on. -/
def exchangeJudged (x : Exchange) (r : Reply) : Op Reply := do
  abortOn (x.check r.resp r.value)
  exchangeEnd x r

/-- A transaction whole, as the sequencer takes it. -/
def exchangeOp (x : Exchange) (arg : Word) : Op Reply := do
  let r ← sendCmd x.index arg x.shape
  exchangeJudged x r

theorem noted_goto (x : Exchange) (v : Option Word) (q : Seq) (s : State) :
    State.noted x v (s.goto q) = (State.noted x v s).goto q := by
  unfold State.noted
  split <;> rfl

theorem unseen_exchangeEnd (x : Exchange) (r : Reply) : Unseen (exchangeEnd x r) := by
  refine (unseen_update (noted_goto x r.value)).bind fun _ => ?_
  split
  · exact unseen_release.bind fun _ => unseen_pure _
  · exact unseen_pure _

theorem unseen_exchangeJudged (x : Exchange) (r : Reply) : Unseen (exchangeJudged x r) :=
  (unseen_abortOn _).bind fun _ => unseen_exchangeEnd x r

section transaction
variable {P : State → Prop} {F : Prop} {A : AbortCause → State → Prop} {x : Exchange} {here : TxStep → Seq}
  {cleanup : AbortCause → Seq} {after : Resp → Option Word → State → State} {s : State}
  (hP : Backward P F) (hA : Placeless A) (hraise : ∀ c t, A c t → P (t.raised cleanup c)) (hne : ∀ p, here p ≠ .idle)
  (htick : ∀ p s, s.seq = here p → tick s = tickTx x here cleanup after p s)
include hP hA hraise hne htick

/-- The release (R145). -/
theorem leads_of_releaseTx {r : Reply} (hs : s.seq = here (.releaseTx r.resp))
    (h : Leads A F (do release; pure ⟨r.resp, none⟩ : Op Reply) s fun a t => P (after a.resp a.value t)) : P s := by
  refine hP.step (hs ▸ hne _) (htick _ _ hs) (stepWrite_leads hraise (A := A) (F := F) ?_)
  exact (h.split hA fun _ => unseen_pure _).mono fun _ t ht => ht t.seq

/-- The check (R153 to R158). -/
theorem leads_of_judge {r : Reply} (hs : s.seq = here (.judge r.resp r.value))
    (h : Leads A F (exchangeJudged x r) s fun a t => P (after a.resp a.value t)) : P s := by
  refine hP.step (hs ▸ hne _) (htick _ _ hs) ?_
  have h := upon_bind.1 h
  cases hc : x.check r.resp r.value with
  | some c =>
    rw [hc] at h
    exact hraise c s h
  | none =>
    rw [hc] at h
    have hend : Leads A F (exchangeEnd x r) s fun a t => P (after a.resp a.value t) := h
    have h := leads_then hend
    dsimp only
    split
    · next hrel =>
      rw [if_pos hrel] at h
      exact leads_of_releaseTx hP hA hraise hne htick rfl
        (leads_goto hA (unseen_release.bind fun _ => unseen_pure _) h)
    · next hrel =>
      rw [if_neg hrel] at h
      exact h (State.noted x r.value s).seq

/-- The trailing bytes (R142). -/
theorem leads_of_trailing {b : Byte} (hs : s.seq = here (.trailing b))
    (h : Leads A F (replyTail .r5 (.byte b) >>= exchangeJudged x) s fun a t => P (after a.resp a.value t)) : P s := by
  refine hP.step (hs ▸ hne _) (htick _ _ hs) (stepRead_leads hraise (A := A) (F := F) ?_)
  refine (upon_bind.1 (upon_bind.1 h)).mono (fun bs t ht q => ?_) fun _ _ he => he
  have hjudged : Leads A F (exchangeJudged x ⟨.byte b, some (be32OfBytes bs)⟩) t
      fun a t => P (after a.resp a.value t) := ht
  exact leads_of_judge hP hA hraise hne htick (r := ⟨.byte b, some (be32OfBytes bs)⟩)
    (s := t.goto (here (.judge (.byte b) (some (be32OfBytes bs))))) rfl (leads_goto hA (unseen_exchangeJudged x _) hjudged)

/-- The response poll, `left` reads left (R141). -/
theorem leads_of_poll {left : Nat} (hs : s.seq = here .poll) (hleft : left = s.params.nResp - s.polls)
    (h : Leads A F (pollTail x.shape left >>= exchangeJudged x) s fun a t => P (after a.resp a.value t)) : P s := by
  have hjudge : ∀ (r : Reply) (t : State), Leads A F (exchangeJudged x r) t (fun a t => P (after a.resp a.value t)) →
      P (t.goto (here (.judge r.resp r.value))) := fun r t ht =>
    leads_of_judge hP hA hraise hne htick rfl (leads_goto hA (unseen_exchangeJudged x r) ht)
  induction left generalizing s with
  | zero =>
    refine hP.step (hs ▸ hne _) (htick _ _ hs) ?_
    rw [if_neg (by omega)]
    have hrun : pollTail x.shape 0 s = .ok ⟨.timeout, none⟩ s.retirePolls := by cases x.shape <;> rfl
    exact hjudge ⟨.timeout, none⟩ _ ((upon_of_ok hrun).1 (upon_bind.1 h))
  | succ left ih =>
    refine hP.step (hs ▸ hne _) (htick _ _ hs) ?_
    rw [if_pos (by omega)]
    simp only [pollTail, pollResponseLoop, Leads, upon_bind] at h
    refine stepReadByte_leads hraise (A := A) (F := F) ?_
    refine (Upon.and h (readByte_upon .none s)).mono (fun b t ⟨ht, hpolls, hparams⟩ q bs hb => ?_) fun _ _ he => he.1
    rw [hb]
    by_cases hidle : b = 0xFF
    · rw [if_pos hidle]
      have hloop : Leads A F (pollTail x.shape left >>= exchangeJudged x) t.countPoll
          fun a t => P (after a.resp a.value t) := by
        simp only [pollTail, Leads, upon_bind]
        rw [if_pos hidle] at ht
        exact ht
      refine ih (s := t.countPoll.goto (here .poll)) rfl ?_ (leads_goto hA ?_ hloop)
      · show left = t.params.nResp - (t.polls + 1)
        rw [hpolls, hparams]
        omega
      · exact (unseen_pollTail _ _).bind (unseen_exchangeJudged x)
    · rw [if_neg hidle]
      rw [if_neg hidle] at ht
      have hreply : Leads A F (replyTail x.shape (.byte b) >>= exchangeJudged x) t.retirePolls
          fun a t => P (after a.resp a.value t) := upon_bind.2 ht
      cases hshape : x.shape with
      | r1 =>
        rw [hshape] at hreply
        exact hjudge ⟨.byte b, none⟩ t.retirePolls hreply
      | r5 =>
        rw [hshape] at hreply
        exact leads_of_trailing hP hA hraise hne htick (s := t.retirePolls.goto (here (.trailing b))) rfl
          (leads_goto hA ((unseen_replyTail _ _).bind (unseen_exchangeJudged x)) hreply)

/-- The frame (R140). -/
theorem leads_of_frame {arg : Word} (hindex : x.index ≤ 63) (hs : s.seq = here (.frame arg))
    (h : Leads A F (exchangeOp x arg) s fun a t => P (after a.resp a.value t)) : P s := by
  cases hb : s.tableBuilt with
  | false =>
    have hfault : tick s = .fault .tableUnbuilt := by rw [htick _ _ hs, tickTx, if_neg (by simp [hb])]
    exact hP.fault (hs ▸ hne _) hfault ((upon_of_error (op_bind_error (sendCmd_unbuilt hb hindex arg x.shape))).1 h)
  | true =>
    have hnext := htick _ _ hs
    rw [tickTx, if_pos hb] at hnext
    refine hP.step (hs ▸ hne _) hnext (stepWrite_leads hraise (A := A) (F := F) ?_)
    have hsend := upon_bind.1 h
    rw [sendCmd, upon_bind, upon_of_ok (assemble_built hb hindex arg), upon_bind] at hsend
    refine hsend.mono (fun _ t ht q => ?_) fun _ _ he => he
    have hpoll : Leads A F (pollTail x.shape t.params.nResp >>= exchangeJudged x) t.startPoll
        fun a t => P (after a.resp a.value t) := by
      refine upon_bind.2 ?_
      rw [Upon, ← receiveReply_eq]
      exact ht
    exact leads_of_poll hP hA hraise hne htick (s := t.startPoll.goto (here .poll)) rfl rfl
      (leads_goto hA ((unseen_pollTail _ _).bind (unseen_exchangeJudged x)) hpoll)

end transaction

end Sys2Proof.Proofs
end

section
/-! The steps of a data phase against its operations run whole (R143, R144, R179 to R183). -/

namespace Sys2Proof.Proofs

open Sys2Proof.Machine Sys2Proof.Laws

theorem tolerant_k : Tolerant fun s t => t.k = s.k :=
  tolerant_of_field State.k (fun _ _ _ _ _ => rfl) (fun _ _ => rfl) fun _ => rfl

/-- The token poll from inside, `left` reads left (R143). -/
def tokenTail (left : Nat) : Op Unit := do
  pollTokenLoop left
  update State.retirePolls

/-- The busy wait from inside, `left` reads left (R144). -/
def busyTail (left : Nat) : Op Unit := do
  busyWaitLoop left
  update State.retirePolls

theorem pollToken_eq (s : State) : pollToken s = tokenTail s.params.nToken s.startPoll := by
  rw [pollToken, op_bind_ok (op_update _ _), op_bind_ok (op_get _)]
  rfl

theorem busyWait_eq (s : State) : busyWait s = busyTail s.params.nBusy s.startPoll := by
  rw [busyWait, op_bind_ok (op_update _ _), op_bind_ok (op_get _)]
  rfl

/-- A received block from its payload on (R179). -/
def payloadTail (buf : Buffer) (off : Nat) : Op Unit := do
  let d ← readOrAbort Config.sectorSize .none
  update (State.memWrite buf off d)
  let _ ← readOrAbort 2 .none

theorem unseen_tokenLoop (left : Nat) : Unseen (pollTokenLoop left) := by
  induction left with
  | zero => exact fun _ => blind_raise _
  | succ left ih =>
    refine (unseen_readByte _).bind fun b => (unseen_update fun _ _ => rfl).bind fun _ => ?_
    split
    · exact unseen_pure _
    · split
      · exact ih
      · exact fun _ => blind_raise _

theorem unseen_tokenTail (left : Nat) : Unseen (tokenTail left) :=
  (unseen_tokenLoop left).bind fun _ => unseen_update fun _ _ => rfl

theorem unseen_busyLoop (left : Nat) : Unseen (busyWaitLoop left) := by
  induction left with
  | zero => exact fun _ => blind_raise _
  | succ left ih =>
    refine (unseen_readByte _).bind fun b => (unseen_update fun _ _ => rfl).bind fun _ => ?_
    split
    · exact unseen_pure _
    · exact ih

theorem unseen_busyTail (left : Nat) : Unseen (busyTail left) :=
  (unseen_busyLoop left).bind fun _ => unseen_update fun _ _ => rfl

theorem unseen_payloadTail (buf : Buffer) (off : Nat) : Unseen (payloadTail buf off) :=
  (unseen_read _ _).bind fun _ => (unseen_update fun _ _ => rfl).bind fun _ => (unseen_read _ _).bind fun _ => unseen_pure _

theorem unseen_busyWait : Unseen busyWait := fun q => blind_busyWait (fun _ => q) id id

theorem unseen_checkDataResponse : Unseen checkDataResponse := fun q => blind_checkDataResponse (fun _ => q) id id

theorem unseen_receiveBlock (buf : Buffer) (off : Nat) : Unseen (receiveBlock buf off) := fun q =>
  blind_receiveBlock (fun _ => q) id id buf off

theorem unseen_sendBlock (token : BlockToken) (buf : Buffer) (off : Nat) : Unseen (sendBlock token buf off) := fun q =>
  blind_sendBlock (fun _ => q) id id token buf off

/-- The sector counter, kept, at the end of an operation. -/
theorem Leads.with_k {α : Type} {A : AbortCause → State → Prop} {F : Prop} {x : Op α} {s : State} {K : α → State → Prop}
    {j : Nat} (hx : Keeps (fun s t => t.k = s.k) x) (hk : s.k = j) (h : Leads A F x s fun a t => t.k = j → K a t) :
    Leads A F x s K :=
  (Upon.and h (upon_of_keeps hx s)).mono (fun _ _ ⟨hK, ht⟩ q => hK q (ht.trans hk)) fun _ _ he => he.1

section data
variable {P : State → Prop} {F : Prop} {A : AbortCause → State → Prop} {token : BlockToken} {buf : Buffer} {off j : Nat}
  {here : DataStep → Seq} {cleanup : AbortCause → Seq} {after : DataStep → State → State} {s : State}
  (hP : Backward P F) (hA : Placeless A) (hraise : ∀ c t, A c t → P (t.raised cleanup c)) (hne : ∀ d, here d ≠ .idle)
  (htick : ∀ d s, s.seq = here d → s.k = j → tick s = .next (tickData token buf off here cleanup after d s))
include hP hraise hne htick

/-- A transport write of a data phase. -/
theorem leads_of_write {d : DataStep} {bytes : List Byte} {pol : Policy} (hs : s.seq = here d) (hk : s.k = j)
    (hd : tickData token buf off here cleanup after d s = stepWrite cleanup bytes pol (after d) s)
    (h : Leads A F (writeOrAbort bytes pol) s fun _ t => t.k = j → P (after d t)) : P s := by
  refine hP.step (hs ▸ hne _) (htick _ _ hs hk) ?_
  rw [hd]
  exact stepWrite_leads hraise (Leads.with_k (tolerant_k.keeps_write _ _) hk h)

/-- The CRC of a received block, of any value (R179). -/
theorem leads_of_readCrc (hs : s.seq = here .readCrc) (hk : s.k = j)
    (h : Leads A F (readOrAbort 2 .none) s fun _ t => t.k = j → P (after .readCrc t)) : P s := by
  refine hP.step (hs ▸ hne _) (htick _ _ hs hk) ?_
  exact stepRead_leads hraise (Leads.with_k (tolerant_k.keeps_read _ _) hk h)

/-- The data response (R181). -/
theorem leads_of_dataResponse (hs : s.seq = here .dataResponse) (hk : s.k = j)
    (h : Leads A F checkDataResponse s fun _ t => t.k = j → P (after .dataResponse t)) : P s := by
  refine hP.step (hs ▸ hne _) (htick _ _ hs hk) (stepReadByte_leads hraise (A := A) (F := F) ?_)
  refine (Upon.and (upon_bind.1 h) (upon_of_keeps (tolerant_k.keeps_readByte .none) s)).mono
    (fun b t ⟨ht, htk⟩ q bs hb => ?_) fun _ _ he => he.1
  rw [hb]
  unfold Upon require at ht
  cases hacc : dataAccepted b with
  | true =>
    rw [hacc] at ht
    exact ht q (htk.trans hk)
  | false =>
    rw [hacc] at ht
    exact hraise _ t ht

include hA

/-- The token poll (R143). -/
theorem leads_of_startToken {left : Nat} (hs : s.seq = here .startToken) (hk : s.k = j)
    (hleft : left = s.params.nToken - s.polls)
    (h : Leads A F (tokenTail left) s fun _ t => t.k = j → P (after .startToken t)) : P s := by
  induction left generalizing s with
  | zero =>
    refine hP.step (hs ▸ hne _) (htick _ _ hs hk) ?_
    rw [tickData, if_neg (by omega)]
    exact hraise _ s h
  | succ left ih =>
    refine hP.step (hs ▸ hne _) (htick _ _ hs hk) ?_
    rw [tickData, if_pos (by omega)]
    simp only [tokenTail, pollTokenLoop, Leads, upon_bind] at h
    refine stepReadByte_leads hraise (A := A) (F := F) ?_
    refine (Upon.and h (Upon.and (readByte_upon .none s) (upon_of_keeps (tolerant_k.keeps_readByte .none) s))).mono
      (fun b t ⟨ht, ⟨hpolls, hparams⟩, htk⟩ q bs hb => ?_) fun _ _ he => he.1
    rw [hb]
    by_cases htoken : b = 0xFE
    · rw [if_pos htoken] at ht ⊢
      exact ht q (htk.trans hk)
    · rw [if_neg htoken] at ht ⊢
      by_cases hidle : b = 0xFF
      · rw [if_pos hidle] at ht ⊢
        have hloop : Leads A F (tokenTail left) t.countPoll fun _ t => t.k = j → P (after .startToken t) := upon_bind.2 ht
        refine ih (s := t.countPoll.goto (here .startToken)) rfl (htk.trans hk) ?_ (leads_goto hA (unseen_tokenTail _) hloop)
        show left = t.params.nToken - (t.polls + 1)
        rw [hpolls, hparams]
        omega
      · rw [if_neg hidle] at ht ⊢
        exact hraise _ t.countPoll ht

/-- The busy wait (R144). -/
theorem leads_of_busy {left : Nat} {w : BusyAfter} (hs : s.seq = here (.busy w)) (hk : s.k = j)
    (hleft : left = s.params.nBusy - s.polls)
    (h : Leads A F (busyTail left) s fun _ t => t.k = j → P (after (.busy w) t)) : P s := by
  induction left generalizing s with
  | zero =>
    refine hP.step (hs ▸ hne _) (htick _ _ hs hk) ?_
    rw [tickData, if_neg (by omega)]
    exact hraise _ s h
  | succ left ih =>
    refine hP.step (hs ▸ hne _) (htick _ _ hs hk) ?_
    rw [tickData, if_pos (by omega)]
    simp only [busyTail, busyWaitLoop, Leads, upon_bind] at h
    refine stepReadByte_leads hraise (A := A) (F := F) ?_
    refine (Upon.and h (Upon.and (readByte_upon .none s) (upon_of_keeps (tolerant_k.keeps_readByte .none) s))).mono
      (fun b t ⟨ht, ⟨hpolls, hparams⟩, htk⟩ q bs hb => ?_) fun _ _ he => he.1
    rw [hb]
    by_cases hidle : b = 0xFF
    · rw [if_pos hidle] at ht ⊢
      exact ht q (htk.trans hk)
    · rw [if_neg hidle] at ht ⊢
      have hloop : Leads A F (busyTail left) t.countPoll fun _ t => t.k = j → P (after (.busy w) t) := upon_bind.2 ht
      refine ih (s := t.countPoll.goto (here (.busy w))) rfl (htk.trans hk) ?_ (leads_goto hA (unseen_busyTail _) hloop)
      show left = t.params.nBusy - (t.polls + 1)
      rw [hpolls, hparams]
      omega

/-- The busy wait from its start. -/
theorem leads_of_busyWait {w : BusyAfter} (hk : s.k = j)
    (h : Leads A F busyWait s fun _ t => t.k = j → P (after (.busy w) t)) :
    P (s.startPoll.goto (here (.busy w))) := by
  have htail : Leads A F (busyTail s.params.nBusy) s.startPoll fun _ t => t.k = j → P (after (.busy w) t) := by
    rw [Leads, Upon, ← busyWait_eq]
    exact h
  exact leads_of_busy hP hA hraise hne htick (s := s.startPoll.goto (here (.busy w))) rfl hk rfl
    (leads_goto hA (unseen_busyTail _) htail)

/-- A received block (R179). -/
theorem leads_of_receiveBlock (hpayload : ∀ t, after .startToken t = t.goto (here .payload))
    (hcrc : ∀ t, after .payload t = t.goto (here .readCrc)) (hk : s.k = j)
    (h : Leads A F (receiveBlock buf off) s fun _ t => t.k = j → P (after .readCrc t)) :
    P (s.startPoll.goto (here .startToken)) := by
  have htoken : Leads A F (tokenTail s.params.nToken) s.startPoll
      fun _ t => Leads A F (payloadTail buf off) t fun _ t => t.k = j → P (after .readCrc t) := by
    rw [Leads, Upon, ← pollToken_eq]
    exact Leads.split hA (fun _ => unseen_payloadTail buf off) h
  refine leads_of_startToken hP hA hraise hne htick (s := s.startPoll.goto (here .startToken)) rfl hk rfl
    ((leads_goto hA (unseen_tokenTail _) htoken).mono fun _ t ht hkt => ?_)
  rw [hpayload]
  refine hP.step (hne _) (htick _ (t.goto (here .payload)) rfl hkt) ?_
  have htail := leads_goto hA (unseen_payloadTail buf off) (q := here .payload) ht
  refine stepRead_leads hraise (A := A) (F := F) (Leads.with_k (tolerant_k.keeps_read _ _) (s := t.goto (here .payload)) hkt ?_)
  refine (upon_bind.1 htail).mono (fun d u hu q hku => ?_) fun _ _ he => he
  rw [hcrc]
  have hread : Leads A F (do let _ ← readOrAbort 2 .none : Op Unit) (u.memWrite buf off d)
      fun _ t => t.k = j → P (after .readCrc t) := upon_bind.1 hu
  refine leads_of_readCrc hP hraise hne htick (s := (u.memWrite buf off d).goto (here .readCrc)) rfl hku ?_
  exact (Leads.split hA (fun _ => unseen_pure _) (leads_goto hA ((unseen_read _ _).bind fun _ => unseen_pure _) hread)).mono
    fun _ v hv hkv => hv v.seq hkv

/-- A sent block (R183). -/
theorem leads_of_sendBlock (hdata : ∀ t, after .sendToken t = t.goto (here .sendData))
    (hcrc : ∀ t, after .sendData t = t.goto (here .sendCrc)) (hk : s.k = j)
    (h : Leads A F (sendBlock token buf off) s fun _ t => t.k = j → P (after .sendCrc t)) :
    P (s.goto (here .sendToken)) := by
  have hunseen : Unseen (do
      let s ← get
      writeOrAbort (s.memRead buf off Config.sectorSize) .none
      writeOrAbort [0xFF, 0xFF] .none : Op Unit) :=
    fun q => blind_get (fun _ => rfl) fun _ => ((unseen_write _ _).bind fun _ => unseen_write _ _) q
  refine leads_of_write hP hraise hne htick (d := .sendToken) rfl hk rfl ?_
  refine (Leads.split hA (fun _ => hunseen) (leads_goto hA (unseen_sendBlock token buf off) h)).mono fun _ t ht hkt => ?_
  rw [hdata]
  have hwrite : Leads A F (do
      writeOrAbort (t.memRead buf off Config.sectorSize) .none
      writeOrAbort [0xFF, 0xFF] .none : Op Unit) t fun _ t => t.k = j → P (after .sendCrc t) := upon_bind.1 ht
  refine leads_of_write hP hraise hne htick (s := t.goto (here .sendData)) (d := .sendData) rfl hkt rfl ?_
  refine (Leads.split hA (fun _ => unseen_write _ _)
    (leads_goto hA ((unseen_write _ _).bind fun _ => unseen_write _ _) hwrite)).mono fun _ u hu hku => ?_
  rw [hcrc]
  exact leads_of_write hP hraise hne htick (s := u.goto (here .sendCrc)) (d := .sendCrc) rfl hku rfl
    (leads_goto hA (unseen_write _ _) hu)

end data

end Sys2Proof.Proofs
end

section
/-! The wire rows and the session primitives run alone: their steps lead to what their meaning gives (R8, R21; log entries 9
and 18). -/

namespace Sys2Proof.Proofs

open Sys2Proof.Machine Sys2Proof.Laws

/-! ### The end of an operation -/

theorem abortTail_goto (q : Seq) (c : AbortCause) (s : State) : (s.goto q).abortTail c = s.abortTail c := by
  rw [State.abortTail, State.abortTail, goto_eq_veiled, xferWrite_veiled]
  rfl

theorem abort_goto (q : Seq) (c : AbortCause) (s : State) : (s.goto q).abort c = s.abort c :=
  abortTail_goto q c { s with cause := some c }

/-- The abort path's step, its cause recorded (R236). -/
theorem abortTail_raised (cleanup : AbortCause → Seq) (c : AbortCause) (s : State) :
    (s.raised cleanup c).abortTail c = s.abort c := abortTail_goto _ c { s with cause := some c }

theorem abort_idle (c : AbortCause) (s : State) : (s.abort c).goto .idle = s.abort c := by
  obtain ⟨ok, h⟩ := abort_cases c s
  rw [h]
  rfl

theorem goto_idle {s : State} (h : s.seq = .idle) : s.goto .idle = s := by
  rw [← h]
  rfl

theorem tolerant_seq : Tolerant fun s t => t.seq = s.seq :=
  tolerant_of_field State.seq (fun _ _ _ _ _ => rfl) (fun _ _ => rfl) fun _ => rfl

/-- What the abort path of an operation run alone is to lead to. -/
def FailsTo (o : Host.Outcome State Fault Refusal) (c : AbortCause) (t : State) : Prop :=
  Reaches o ((t.abort c).returning .failed)

/-- What a fold with no table is to lead to. -/
def FaultsTo (o : Host.Outcome State Fault Refusal) : Prop := o = .fault .tableUnbuilt

theorem placeless_failsTo (o : Host.Outcome State Fault Refusal) : Placeless (FailsTo o) := by
  intro q c t h
  rw [FailsTo, abort_goto]
  exact h

/-- The outcome that is there at once. -/
theorem reaches_next (t : State) : Reaches (.next t) t := ⟨0, rfl⟩

/-- An operation run alone leads to its own outcome. -/
theorem leads_runAlone {α : Type} {op : Op α} {ret : α → Result} {s : State}
    (hseq : Keeps (fun s t => t.seq = s.seq) op) (hidle : s.seq = .idle) :
    Leads (FailsTo (runAlone op ret s)) (FaultsTo (runAlone op ret s)) op s
      fun a t => Reaches (runAlone op ret s) (t.returnCall (ret a)) := by
  have hkeep := upon_of_keeps hseq s
  cases h : op s with
  | ok a t =>
    have ht : t.seq = .idle := ((upon_of_ok h).1 hkeep).trans hidle
    refine (upon_of_ok h).2 fun q => ?_
    rw [runAlone_ok h]
    show Reaches _ ((t.goto .idle).returning (ret a))
    rw [goto_idle ht]
    exact reaches_next _
  | error e t =>
    refine (upon_of_error h).2 ?_
    cases e with
    | abort c =>
      rw [runAlone_abort h]
      exact reaches_next _
    | fault f => cases f; exact runAlone_fault h
    | refuse r => trivial

/-! ### The positions of an operation run alone -/

section alone
variable {o : Host.Outcome State Fault Refusal} {i : Instr} {s : State}

theorem raised_alone (c : AbortCause) (t : State) (h : FailsTo o c t) :
    Reaches o (t.raised (fun c => .alone i (.cleanup c)) c) := by
  refine (backward_reaches o).step (t := (t.abort c).returning .failed) (by simp [State.raised, State.goto])
    ?_ h
  show Host.Outcome.next (((t.raised (fun c => .alone i (.cleanup c)) c).abortTail c).returnCall .failed) = _
  rw [abortTail_raised, State.returnCall, abort_idle]

theorem alone_ne_idle (p : AloneStep) : Seq.alone i p ≠ .idle := nofun

theorem tick_alone {p : AloneStep} (hs : s.seq = .alone i p) : tick s = tickAlone i p s := by rw [tick, hs]

theorem unseen_sendCmd (index : Nat) (arg : Word) (shape : Shape) : Unseen (sendCmd index arg shape) :=
  fun q => blind_sendCmd (fun _ => q) id id index arg shape

theorem unseen_exchangeOp (x : Exchange) (arg : Word) : Unseen (exchangeOp x arg) :=
  (unseen_sendCmd x.index arg x.shape).bind (unseen_exchangeJudged x)

/-- A frame sent alone. -/
theorem alone_frame {arg : Word} (hindex : (aloneExchange i).index ≤ 63)
    (h : Leads (FailsTo o) (FaultsTo o) (exchangeOp (aloneExchange i) arg) s
      fun a t => Reaches o (State.afterAloneTx i a.resp a.value t)) : Reaches o (s.goto (.alone i (.tx (.frame arg)))) :=
  leads_of_frame (x := aloneExchange i) (here := fun q => .alone i (.tx q)) (after := State.afterAloneTx i)
    (backward_reaches o) (placeless_failsTo o) raised_alone (fun _ => alone_ne_idle _)
    (fun _ _ hs => (tick_alone hs).trans (tickAlone_tx ..)) hindex rfl
    (leads_goto (placeless_failsTo o) (unseen_exchangeOp _ _) h)

/-- A response received alone, from its poll on. -/
theorem alone_poll (h : Leads (FailsTo o) (FaultsTo o) (receiveReply (aloneExchange i).shape >>= exchangeJudged (aloneExchange i))
      s fun a t => Reaches o (State.afterAloneTx i a.resp a.value t)) :
    Reaches o (s.startPoll.goto (.alone i (.tx .poll))) := by
  refine leads_of_poll (x := aloneExchange i) (here := fun q => .alone i (.tx q)) (after := State.afterAloneTx i)
    (left := s.params.nResp) (s := s.startPoll.goto (.alone i (.tx .poll)))
    (backward_reaches o) (placeless_failsTo o) raised_alone (fun _ => alone_ne_idle _)
    (fun _ _ hs => (tick_alone hs).trans (tickAlone_tx ..)) rfl rfl
    (leads_goto (placeless_failsTo o) ((unseen_pollTail _ _).bind (unseen_exchangeJudged _)) ?_)
  refine upon_bind.2 ?_
  have h := upon_bind.1 h
  rw [Upon, receiveReply_eq] at h
  exact h

/-- The data station of an operation run alone. -/
theorem tick_alone_data {token : BlockToken} {buf : Buffer} {off j : Nat} (hblock : aloneBlock i = (token, buf, off))
    (d : DataStep) (s : State) (hs : s.seq = .alone i (.data d)) (_ : s.k = j) :
    tick s = .next (tickData token buf off (fun d => .alone i (.data d)) (fun c => .alone i (.cleanup c))
      (State.afterAloneData i) d s) := by
  rw [tick_alone hs, tickAlone, hblock]

end alone

/-! ### Transactions -/

/-- A transaction of the session with its check, and its end. -/
theorem exchangeOp_tx (tx : Tx) (arg : Word) :
    exchangeOp tx.exchange arg = transact tx arg >>= exchangeEnd tx.exchange := by
  funext s
  cases h : sendCmd tx.index arg tx.shape s with
  | error e t =>
    rw [exchangeOp, op_bind_error (x := sendCmd tx.exchange.index arg tx.exchange.shape) h, op_bind_error]
    exact op_bind_error h
  | ok r t =>
    rw [exchangeOp, op_bind_ok (x := sendCmd tx.exchange.index arg tx.exchange.shape) h, exchangeJudged]
    cases hc : tx.check r.resp r.value with
    | some c =>
      have hstop : abortOn (tx.exchange.check r.resp r.value) t = .error (.abort c) t := congrArg (abortOn · t) hc
      rw [op_bind_error hstop, op_bind_error (transact_fail h hc)]
    | none =>
      have hpass : abortOn (tx.exchange.check r.resp r.value) t = .ok () t := congrArg (abortOn · t) hc
      rw [op_bind_ok hpass, op_bind_ok (transact_pass h hc)]

/-- A response of one byte has no value (R140). -/
theorem receiveReply_r1_value (s : State) :
    Upon (receiveReply .r1) s (fun r _ => r.value = none) (fun _ _ => True) :=
  Upon.bind .trivial fun _ _ _ => rfl

theorem sendCmd_r1_value (index : Nat) (arg : Word) (s : State) :
    Upon (sendCmd index arg .r1) s (fun r _ => r.value = none) (fun _ _ => True) :=
  Upon.bind .trivial fun _ _ _ => Upon.bind .trivial fun _ _ _ => receiveReply_r1_value _

theorem transact_value {tx : Tx} (hshape : tx.shape = .r1) (arg : Word) (s : State) :
    Upon (transact tx arg) s (fun r _ => r.value = none) (fun _ _ => True) := by
  unfold transact
  rw [hshape]
  exact (sendCmd_r1_value _ _ s).bind fun r t hr => Upon.bind .trivial fun _ _ _ => hr

section transactions
variable {o : Host.Outcome State Fault Refusal} {i : Instr} {tx : Tx} {s : State}

/-- A frame sent alone and released, its reply not returned. -/
theorem alone_releasedOnly (hx : aloneExchange i = tx.exchange)
    (hend : ∀ r, exchangeEnd tx.exchange r = (do release; pure ⟨r.resp, none⟩))
    (hafter : ∀ r v t, State.afterAloneTx i r v t = t.returnCall .done)
    (h : Leads (FailsTo o) (FaultsTo o) (do let _ ← transact tx (aloneArg i); release) s
      fun _ t => Reaches o (t.returnCall .done)) : Reaches o (s.goto (.alone i (.tx (.frame (aloneArg i))))) := by
  refine alone_frame (hx ▸ tx_index_le tx) ?_
  rw [hx, exchangeOp_tx]
  refine upon_bind.2 ((upon_bind.1 h).mono (fun r t ht => ?_) fun _ _ he => he)
  rw [hend]
  refine upon_bind.2 (Upon.mono ht (fun _ u hu q => ?_) fun _ _ he => he)
  show Reaches o (State.afterAloneTx i r.resp none (u.goto q))
  rw [hafter]
  exact hu q

/-- A frame sent alone and released, its reply returned. -/
theorem alone_released (hx : aloneExchange i = tx.exchange) (hshape : tx.shape = .r1)
    (hend : ∀ r, exchangeEnd tx.exchange r = (do release; pure ⟨r.resp, none⟩))
    (hafter : ∀ r v t, State.afterAloneTx i r v t = t.returnCall (.response r v))
    (h : Leads (FailsTo o) (FaultsTo o) (do let r ← transact tx (aloneArg i); release; pure r) s
      fun r t => Reaches o (t.returnCall (.response r.resp r.value))) :
    Reaches o (s.goto (.alone i (.tx (.frame (aloneArg i))))) := by
  refine alone_frame (hx ▸ tx_index_le tx) ?_
  rw [hx, exchangeOp_tx]
  refine upon_bind.2 ((Upon.and (upon_bind.1 h) (transact_value hshape _ s)).mono (fun r t ⟨ht, hv⟩ => ?_)
    fun _ _ he => he.1)
  rw [hend]
  refine upon_bind.2 ((upon_bind.1 ht).mono (fun _ u hu q => ?_) fun _ _ he => he)
  show Reaches o (State.afterAloneTx i r.resp none (u.goto q))
  rw [hafter, ← hv]
  exact hu q

/-- A data command sent alone. -/
theorem alone_data (hx : aloneExchange i = tx.exchange) (hend : ∀ r, exchangeEnd tx.exchange r = pure r)
    (hafter : ∀ r v t, State.afterAloneTx i r v t = t.returnCall (.response r v))
    (h : Leads (FailsTo o) (FaultsTo o) (transact tx (aloneArg i)) s
      fun r t => Reaches o (t.returnCall (.response r.resp r.value))) :
    Reaches o (s.goto (.alone i (.tx (.frame (aloneArg i))))) := by
  refine alone_frame (hx ▸ tx_index_le tx) ?_
  rw [hx, exchangeOp_tx]
  refine upon_bind.2 (Upon.mono h (fun r t ht => ?_) fun _ _ he => he)
  rw [hend]
  intro q
  show Reaches o (State.afterAloneTx i r.resp r.value (t.goto q))
  rw [hafter]
  exact ht q

end transactions

end Sys2Proof.Proofs
end

section
/-! Every wire row and session primitive run alone from an idle sequencer: the steps begun lead to what its meaning gives (R8,
R21). -/

namespace Sys2Proof.Proofs

open Sys2Proof.Machine Sys2Proof.Laws

/-- What a first step leads to: the outcome, by the steps after it or at once. -/
def Carried (first o : Host.Outcome State Fault Refusal) : Prop :=
  match first with
  | .next u => Reaches o u
  | .fault f => o = .fault f
  | .refused r => o = .refused r

theorem carried_same (o : Host.Outcome State Fault Refusal) : Carried o o := by
  cases o with
  | next u => exact reaches_next u
  | fault f => rfl
  | refused r => rfl

/-! ### The ends of the exchanges -/

theorem exchangeEnd_released {tx : Tx} (hrel : tx.releases = true) (hcap : tx ≠ .init .ocrPower) (r : Reply) :
    exchangeEnd tx.exchange r = (do release; pure ⟨r.resp, none⟩) := by
  have hnoted : State.noted tx.exchange r.value = id := funext fun s => if_neg (by simpa [Tx.exchange] using hcap)
  rw [exchangeEnd, if_pos (show tx.exchange.releases = true from hrel), hnoted]
  rfl

theorem exchangeEnd_kept {tx : Tx} (hrel : tx.releases = false) (hcap : tx ≠ .init .ocrPower) (r : Reply) :
    exchangeEnd tx.exchange r = pure r := by
  have hnoted : State.noted tx.exchange r.value = id := funext fun s => if_neg (by simpa [Tx.exchange] using hcap)
  rw [exchangeEnd, if_neg (by simp [Tx.exchange, hrel]), hnoted]
  rfl

theorem exchangeJudged_bare (index : Nat) (shape : Shape) (r : Reply) : exchangeJudged (.bare index shape) r = pure r := rfl

section steps
variable {o : Host.Outcome State Fault Refusal} {i : Instr} {s : State} {token : BlockToken} {buf : Buffer} {off : Nat}

/-! ### Data steps -/

/-- A write alone. -/
theorem alone_write {d : DataStep} {bytes : List Byte} {pol : Policy} (hblock : aloneBlock i = (token, buf, off))
    (hd : ∀ here cleanup after t, tickData token buf off here cleanup after d t = stepWrite cleanup bytes pol (after d) t)
    (h : Leads (FailsTo o) (FaultsTo o) (writeOrAbort bytes pol) s fun _ t => Reaches o (State.afterAloneData i d t)) :
    Reaches o (s.goto (.alone i (.data d))) :=
  leads_of_write (s := s.goto (.alone i (.data d))) (j := s.k) (backward_reaches o) raised_alone (fun _ => alone_ne_idle _)
    (tick_alone_data hblock) rfl rfl (hd ..)
    ((leads_goto (placeless_failsTo o) (unseen_write bytes pol) h).mono fun _ _ ht _ => ht)

/-- A busy wait alone. -/
theorem alone_busy {w : BusyAfter} (hblock : aloneBlock i = (token, buf, off))
    (h : Leads (FailsTo o) (FaultsTo o) busyWait s fun _ t => Reaches o (State.afterAloneData i (.busy w) t)) :
    Reaches o (s.startPoll.goto (.alone i (.data (.busy w)))) :=
  leads_of_busyWait (s := s) (j := s.k) (backward_reaches o) (placeless_failsTo o) raised_alone (fun _ => alone_ne_idle _)
    (tick_alone_data hblock) rfl (h.mono fun _ _ ht _ => ht)

/-- A token poll alone. -/
theorem alone_token (hblock : aloneBlock i = (token, buf, off))
    (h : Leads (FailsTo o) (FaultsTo o) pollToken s fun _ t => Reaches o (State.afterAloneData i .startToken t)) :
    Reaches o (s.startPoll.goto (.alone i (.data .startToken))) := by
  refine leads_of_startToken (s := s.startPoll.goto (.alone i (.data .startToken))) (j := s.k) (left := s.params.nToken)
    (backward_reaches o) (placeless_failsTo o) raised_alone (fun _ => alone_ne_idle _) (tick_alone_data hblock) rfl rfl rfl
    ((leads_goto (placeless_failsTo o) (unseen_tokenTail _) ?_).mono fun _ _ ht _ => ht)
  rw [Leads, Upon, pollToken_eq] at h
  exact h

/-- A data response alone. -/
theorem alone_dataResponse (hblock : aloneBlock i = (token, buf, off)) (hafter : aloneNext i .dataResponse = none)
    (h : Leads (FailsTo o) (FaultsTo o) checkDataResponse s fun _ t => Reaches o (t.returnCall .done)) :
    Reaches o (s.goto (.alone i (.data .dataResponse))) := by
  refine leads_of_dataResponse (s := s.goto (.alone i (.data .dataResponse))) (j := s.k)
    (backward_reaches o) raised_alone (fun _ => alone_ne_idle _) (tick_alone_data hblock) rfl rfl
    ((leads_goto (placeless_failsTo o) unseen_checkDataResponse h).mono fun _ t ht _ => ?_)
  rw [State.afterAloneData, hafter]
  exact ht

/-- The busy wait and the release at the end of a stop (R177, R189). -/
theorem alone_busyRelease {w : BusyAfter} (hblock : aloneBlock i = (token, buf, off))
    (hbusy : aloneNext i (.busy w) = some .finalRelease) (hend : aloneNext i .finalRelease = none)
    (h : Leads (FailsTo o) (FaultsTo o) (do busyWait; release) s fun _ t => Reaches o (t.returnCall .done)) :
    Reaches o (s.startPoll.goto (.alone i (.data (.busy w)))) := by
  refine alone_busy hblock ((h.split (placeless_failsTo o) fun _ => unseen_release).mono fun _ t ht => ?_)
  rw [State.afterAloneData, hbusy]
  refine alone_write (d := .finalRelease) hblock (fun _ _ _ _ => rfl) (Leads.mono ht fun _ u hu => ?_)
  rw [State.afterAloneData, hend]
  exact hu

end steps

/-! ### The operations -/

section operations
variable {s : State} (hidle : s.seq = .idle)
include hidle

/-- A frame whose transaction is released. -/
theorem carried_releasedOnly {i : Instr} {tx : Tx} {step : Op Unit} (hx : aloneExchange i = tx.exchange)
    (hrel : tx.releases = true) (hcap : tx ≠ .init .ocrPower)
    (hafter : ∀ r v t, State.afterAloneTx i r v t = t.returnCall .done)
    (hstep : step = (do let _ ← transact tx (aloneArg i); release)) :
    Reaches (runAlone step (fun _ => .done) s) (s.goto (.alone i (.tx (.frame (aloneArg i))))) := by
  subst hstep
  exact alone_releasedOnly hx (exchangeEnd_released hrel hcap) hafter (leads_runAlone (ret := fun _ => .done)
    (tolerant_seq.keeps_bind (tolerant_seq.keeps_transact _ _) fun _ => tolerant_seq.keeps_release) hidle)

/-- A frame whose transaction is released and whose response is returned. -/
theorem carried_released {i : Instr} {tx : Tx} {step : Op Reply} (hx : aloneExchange i = tx.exchange) (hshape : tx.shape = .r1)
    (hrel : tx.releases = true) (hcap : tx ≠ .init .ocrPower)
    (hafter : ∀ r v t, State.afterAloneTx i r v t = t.returnCall (.response r v))
    (hstep : step = (do let r ← transact tx (aloneArg i); release; pure r)) :
    Reaches (runAlone step (fun r => .response r.resp r.value) s) (s.goto (.alone i (.tx (.frame (aloneArg i))))) := by
  subst hstep
  exact alone_released hx hshape (exchangeEnd_released hrel hcap) hafter (leads_runAlone
    (tolerant_seq.keeps_bind (tolerant_seq.keeps_transact _ _) fun _ =>
      tolerant_seq.keeps_bind tolerant_seq.keeps_release fun _ => tolerant_seq.keeps_pure _) hidle)

/-- A data command. -/
theorem carried_data {i : Instr} {tx : Tx} (hx : aloneExchange i = tx.exchange) (hrel : tx.releases = false)
    (hcap : tx ≠ .init .ocrPower) (hafter : ∀ r v t, State.afterAloneTx i r v t = t.returnCall (.response r v)) :
    Reaches (runAlone (transact tx (aloneArg i)) (fun r => .response r.resp r.value) s)
      (s.goto (.alone i (.tx (.frame (aloneArg i))))) :=
  alone_data hx (exchangeEnd_kept hrel hcap) hafter (leads_runAlone (tolerant_seq.keeps_transact _ _) hidle)

/-- CMD12 (R177). -/
theorem carried_cmd12 : Reaches (exec .cmd12 s) (s.goto (.alone .cmd12 (.tx (.frame 0)))) := by
  have hend := exchangeEnd_kept (tx := .io .stopRead) rfl (by simp)
  refine alone_frame (i := .cmd12) (tx_index_le (.io .stopRead)) ?_
  rw [show aloneExchange .cmd12 = (Tx.io .stopRead).exchange from rfl, exchangeOp_tx, funext hend, bind_pure]
  have h := leads_runAlone (ret := fun _ => .done) tolerant_seq.keeps_stopRead hidle
  refine (Leads.split (placeless_failsTo _) (fun _ => unseen_busyWait.bind fun _ => unseen_release) h).mono fun _ t ht => ?_
  exact alone_busyRelease rfl rfl rfl ht

/-- SendCmd (R140). -/
theorem carried_sendCmd (index : Nat) (arg : Word) (shape : Shape) :
    Carried (start (.sendCmd index arg shape) s) (exec (.sendCmd index arg shape) s) := by
  by_cases h : 63 < index
  · rw [start, if_pos h]
    have hassemble : assemble index arg s = .error (.refuse .commandIndexOutOfRange) s := by rw [assemble, if_pos h]; rfl
    exact runAlone_refuse (op_bind_error hassemble)
  · rw [start, if_neg h]
    refine alone_frame (i := .sendCmd index arg shape) (show index ≤ 63 by omega) ?_
    rw [show aloneExchange (.sendCmd index arg shape) = .bare index shape from rfl, exchangeOp,
      funext (exchangeJudged_bare index shape), bind_pure]
    exact leads_runAlone (ret := fun r => .response r.resp r.value) (tolerant_seq.keeps_sendCmd index arg shape) hidle

/-- The response poll, of bytes that may come first (R141). -/
theorem carried_pollResponse {i : Instr} (hx : aloneExchange i = .bare 0 .r1)
    (hafter : ∀ r v t, State.afterAloneTx i r v t = t.returnCall (.response r v)) (answers : List Answer) :
    Reaches (runAlone pollResponse (fun r => .response r none) (s.deliver answers)) (s.enterPoll i (.tx .poll) answers) := by
  refine alone_poll (i := i) (s := s.deliver answers) ?_
  rw [hx, funext (exchangeJudged_bare 0 .r1), bind_pure]
  refine upon_bind.2 (Upon.mono (leads_runAlone (ret := fun r => .response r none) (s := s.deliver answers)
    tolerant_seq.keeps_pollResponse hidle) (fun r t ht q => ?_) fun _ _ he => he)
  show Reaches _ (State.afterAloneTx i r none (t.goto q))
  rw [hafter]
  exact ht q

/-- A five-byte response received and checked (R154, R155). -/
theorem carried_checked {i : Instr} {tx : Tx} (hx : aloneExchange i = { tx.exchange with releases := false })
    (hcap : tx ≠ .init .ocrPower) (hafter : ∀ r v t, State.afterAloneTx i r v t = t.returnCall (.response r v))
    (answers : List Answer) :
    Reaches (runAlone (receiveChecked tx) (fun r => .response r.resp r.value) (s.deliver answers))
      (s.enterPoll i (.tx .poll) answers) := by
  have hjudged : ∀ r, exchangeJudged (aloneExchange i) r = (do abortOn (tx.check r.resp r.value); pure r) := by
    intro r
    have hnoted : State.noted { tx.exchange with releases := false } r.value = id :=
      funext fun s => if_neg (by simpa [Tx.exchange] using hcap)
    rw [hx, exchangeJudged, exchangeEnd, hnoted]
    rfl
  refine alone_poll (i := i) (s := s.deliver answers) ?_
  rw [funext hjudged, hx]
  refine (leads_runAlone (op := receiveChecked tx) (ret := fun r => .response r.resp r.value) (s := s.deliver answers)
    (tolerant_seq.keeps_receiveChecked tx) hidle).mono fun r t ht => ?_
  rw [hafter]
  exact ht

/-- The token poll, of bytes that may come first (R143). -/
theorem carried_pollToken {i : Instr} (hblock : aloneBlock i = (.multi, { base := 0, len := 0 }, 0))
    (hend : aloneNext i .startToken = none) (answers : List Answer) :
    Reaches (runAlone pollToken (fun _ => .done) (s.deliver answers)) (s.enterPoll i (.data .startToken) answers) := by
  refine alone_token (i := i) (s := s.deliver answers) hblock ((leads_runAlone (ret := fun _ => .done)
    (s := s.deliver answers) tolerant_seq.keeps_pollToken hidle).mono fun _ t ht => ?_)
  rw [State.afterAloneData, hend]
  exact ht

/-- The data response, of bytes that may come first (R181). -/
theorem carried_dataResponse {i : Instr} (hblock : aloneBlock i = (.multi, { base := 0, len := 0 }, 0))
    (hend : aloneNext i .dataResponse = none) (answers : List Answer) :
    Reaches (runAlone checkDataResponse (fun _ => .done) (s.deliver answers))
      ((s.deliver answers).goto (.alone i (.data .dataResponse))) :=
  alone_dataResponse (s := s.deliver answers) hblock hend (leads_runAlone (ret := fun _ => .done)
    (s := s.deliver answers) tolerant_seq.keeps_checkDataResponse hidle)

/-- The busy wait (R144). -/
theorem carried_busyWait : Reaches (exec .busyWait s) (s.enterPoll .busyWait (.data (.busy .block)) []) :=
  alone_busy (i := .busyWait) (s := s) rfl (leads_runAlone (ret := fun _ => .done) tolerant_seq.keeps_busyWait hidle)

/-- A write alone, with its end. -/
theorem carried_write {i : Instr} {d : DataStep} {bytes : List Byte} {pol : Policy} {token : BlockToken} {buf : Buffer}
    {off : Nat} (hblock : aloneBlock i = (token, buf, off)) (hend : aloneNext i d = none)
    (hd : ∀ here cleanup after t, tickData token buf off here cleanup after d t = stepWrite cleanup bytes pol (after d) t) :
    Reaches (runAlone (writeOrAbort bytes pol) (fun _ => .done) s) (s.goto (.alone i (.data d))) := by
  refine alone_write hblock hd ((leads_runAlone (ret := fun _ => .done) (tolerant_seq.keeps_write bytes pol) hidle).mono
    fun _ t ht => ?_)
  rw [State.afterAloneData, hend]
  exact ht

/-- TOKEN_STOP_TRAN (R189). -/
theorem carried_tokenStopTran : Reaches (exec .tokenStopTran s) (s.goto (.alone .tokenStopTran (.data .stopToken))) := by
  have h := leads_runAlone (ret := fun _ => .done) tolerant_seq.keeps_stopWrite hidle
  refine alone_write (i := .tokenStopTran) (d := .stopToken) rfl (fun _ _ _ _ => rfl) (Leads.mono
    (Leads.split (placeless_failsTo _) (fun _ => unseen_busyWait.bind fun _ => unseen_release) h) fun _ t ht => ?_)
  exact alone_busyRelease rfl rfl rfl ht

/-- ReceiveBlock (R179). -/
theorem carried_receiveBlock (buf : Buffer) (off : Nat) :
    Carried (start (.receiveBlock buf off) s) (exec (.receiveBlock buf off) s) := by
  rw [start, startBlock, exec, execReceiveBlock, runWithBuffer]
  split
  · have h := leads_runAlone (ret := fun _ => .done) (tolerant_seq.keeps_receiveBlock buf off fun _ _ _ => rfl) hidle
    exact leads_of_receiveBlock (here := fun d => .alone (.receiveBlock buf off) (.data d)) (s := s) (j := s.k)
      (backward_reaches _) (placeless_failsTo _) raised_alone (fun _ => alone_ne_idle _) (tick_alone_data rfl)
      (fun _ => rfl) (fun _ => rfl) rfl (h.mono fun _ _ ht _ => ht)
  · rfl

/-- SendBlock (R183). -/
theorem carried_sendBlock (token : BlockToken) (buf : Buffer) (off : Nat) :
    Carried (start (.sendBlock token buf off) s) (exec (.sendBlock token buf off) s) := by
  rw [start, startBlock, exec, execSendBlock, runWithBuffer]
  split
  · have h := leads_runAlone (ret := fun _ => .done) (tolerant_seq.keeps_sendBlock token buf off) hidle
    exact leads_of_sendBlock (here := fun d => .alone (.sendBlock token buf off) (.data d)) (s := s) (j := s.k)
      (backward_reaches _) (placeless_failsTo _) raised_alone (fun _ => alone_ne_idle _) (tick_alone_data rfl)
      (fun _ => rfl) (fun _ => rfl) rfl (h.mono fun _ _ ht _ => ht)
  · rfl

end operations

/-- AbortPath (R236 to R239). -/
theorem carried_abortPath (c : AbortCause) (s : State) :
    Reaches (exec (.abortPath c) s) (s.raised (fun c => .alone (.abortPath c) (.cleanup c)) c) := by
  refine (backward_reaches _).step (alone_ne_idle (i := .abortPath c) (.cleanup c)) ?_ (reaches_next _)
  show Host.Outcome.next (((s.raised (fun c => .alone (.abortPath c) (.cleanup c)) c).abortTail c).returnCall .failed) = _
  rw [abortTail_raised, State.returnCall, abort_idle]

end Sys2Proof.Proofs
end

section
/-! Initialization step by step against initialization run whole (R150 to R162). -/

namespace Sys2Proof.Proofs

open Sys2Proof.Machine Sys2Proof.Laws

/-! ### The position is not seen -/

theorem unseen_transact (tx : Tx) (arg : Word) : Unseen (transact tx arg) :=
  (unseen_sendCmd _ _ _).bind fun _ => (unseen_abortOn _).bind fun _ => unseen_pure _

theorem unseen_releasedOnly (tx : Tx) (arg : Word) : Unseen (do let _ ← transact tx arg; release) :=
  (unseen_transact tx arg).bind fun _ => unseen_release

theorem unseen_released (tx : Tx) (arg : Word) : Unseen (do let r ← transact tx arg; release; pure r) :=
  (unseen_transact tx arg).bind fun _ => unseen_release.bind fun _ => unseen_pure _

theorem unseen_clock (rate : Rate) : Unseen (clockOrAbort rate) := fun q => blind_clock (fun _ => q) id id rate

theorem unseen_opCondLoop (left : Nat) : Unseen (opCondLoop left) := by
  induction left with
  | zero => exact fun _ => blind_raise _
  | succ left ih =>
    refine (unseen_update fun _ _ => rfl).bind fun _ => (unseen_released _ _).bind fun _ =>
      (unseen_released _ _).bind fun r => ?_
    split
    · exact unseen_pure _
    · exact ih

theorem unseen_initStep5 : Unseen initStep5 := (unseen_update fun _ _ => rfl).bind fun _ => unseen_opCondLoop _

theorem unseen_initStep6 : Unseen initStep6 :=
  (unseen_transact _ _).bind fun _ => (unseen_update fun _ _ => rfl).bind fun _ => unseen_release

theorem unseen_initStep8 : Unseen initStep8 := unseen_update fun _ _ => rfl

/-- Steps 7 and 8 (R159, R160). -/
def initEnd : Op Unit := do
  initStep7
  initStep8

/-- Steps 6 to 8 (R158 to R160). -/
def initPower : Op Unit := do
  initStep6
  initEnd

theorem unseen_initEnd : Unseen initEnd := (unseen_clock .fast).bind fun _ => unseen_initStep8

theorem unseen_initPower : Unseen initPower := unseen_initStep6.bind fun _ => unseen_initEnd

theorem unseen_initTail : Unseen initTail := unseen_initStep5.bind fun _ => unseen_initPower

/-- What follows a round of the loop of step 5 (R156). -/
def roundRest (left : Nat) (r : Reply) : Op Unit :=
  (if r.resp = .byte 0x00 then pure () else opCondLoop left) >>= fun _ => initPower

theorem unseen_roundRest (left : Nat) (r : Reply) : Unseen (roundRest left r) := by
  refine Unseen.bind ?_ fun _ => unseen_initPower
  split
  · exact unseen_pure _
  · exact unseen_opCondLoop left

theorem unseen_opCond : Unseen opCond := unseen_released _ _

theorem unseen_initRest : Unseen initRest :=
  (unseen_releasedOnly _ _).bind fun _ => (unseen_releasedOnly _ _).bind fun _ => (unseen_releasedOnly _ _).bind fun _ =>
    unseen_initTail

/-- A property that every outcome has, at the end of an operation. -/
theorem Leads.keeping {α : Type} {A : AbortCause → State → Prop} {F : Prop} {x : Op α} {s : State} {K : α → State → Prop}
    {R : State → Prop} {E : Stop → State → Prop} (hx : Upon x s (fun _ t => R t) E) (hR : ∀ q t, R t → R (t.goto q))
    (h : Leads A F x s fun a t => R t → K a t) : Leads A F x s K :=
  (Upon.and h hx).mono (fun _ _ ⟨hK, ht⟩ q => hK q (hR q _ ht)) fun _ _ he => he.1

theorem tolerant_iter : Tolerant fun s t => t.iter = s.iter :=
  tolerant_of_field State.iter (fun _ _ _ _ _ => rfl) (fun _ _ => rfl) fun _ => rfl

/-! ### The stations of initialization -/

/-- What an initialization's abort path is to lead to. -/
def FailsBringUp (o : Host.Outcome State Fault Refusal) (next : Option Transfer) (c : AbortCause) (t : State) : Prop :=
  Reaches o ((t.abort c).failBringUp next)

/-- What initialization goes on to: its end, or the range check of a sector call (R160, R171). -/
def entered (next : Option Transfer) (s : State) : State :=
  match next with
  | none => s.settleOk.returnCall .ok
  | some t => s.settleOk.goto (.transfer t .range)

section bringUp
variable {o : Host.Outcome State Fault Refusal} {next : Option Transfer} {s : State}

theorem placeless_failsBringUp : Placeless (FailsBringUp o next) := by
  intro q c t h
  rw [FailsBringUp, abort_goto]
  exact h

theorem bringUp_ne_idle (p : InitStep) : Seq.bringUp next p ≠ .idle := nofun

theorem tick_bringUp {p : InitStep} (hs : s.seq = .bringUp next p) : tick s = tickInit next p s := by rw [tick, hs]

theorem raised_bringUp (c : AbortCause) (t : State) (h : FailsBringUp o next c t) :
    Reaches o (t.raised (fun c => .bringUp next (.cleanup c)) c) := by
  refine (backward_reaches o).step (t := (t.abort c).failBringUp next) (bringUp_ne_idle (.cleanup c)) ?_ h
  show Host.Outcome.next (((t.raised (fun c => .bringUp next (.cleanup c)) c).abortTail c).failBringUp next) = _
  rw [abortTail_raised]

/-- A transaction of initialization. -/
theorem bringUp_tx {x : InitTx} {arg : Word}
    (h : Leads (FailsBringUp o next) (FaultsTo o) (transact (.init x) arg >>= exchangeEnd (Tx.init x).exchange) s
      fun a t => Reaches o (State.afterInitTx next x a.resp t)) : Reaches o (s.goto (.bringUp next (.tx x (.frame arg)))) := by
  rw [← exchangeOp_tx] at h
  exact leads_of_frame (x := (Tx.init x).exchange) (here := fun q => .bringUp next (.tx x q))
    (after := fun resp _ => State.afterInitTx next x resp) (s := s.goto (.bringUp next (.tx x (.frame arg))))
    (backward_reaches o) placeless_failsBringUp raised_bringUp (fun _ => bringUp_ne_idle _)
    (fun _ _ hs => (tick_bringUp hs).trans (tickInit_tx ..)) (tx_index_le (.init x)) rfl
    (leads_goto placeless_failsBringUp (unseen_exchangeOp _ _) h)

/-- A transaction of the loop of step 5. -/
theorem bringUp_released {x : InitTx} {arg : Word} (hcap : x ≠ .ocrPower)
    (h : Leads (FailsBringUp o next) (FaultsTo o) (do let r ← transact (.init x) arg; release; pure r) s
      fun r t => Reaches o (State.afterInitTx next x r.resp t)) : Reaches o (s.goto (.bringUp next (.tx x (.frame arg)))) := by
  refine bringUp_tx (upon_bind.2 ((upon_bind.1 h).mono (fun r t ht => ?_) fun _ _ he => he))
  rw [exchangeEnd_released (tx := .init x) rfl (by simpa using hcap)]
  exact upon_bind.2 ((upon_bind.1 ht).mono (fun _ _ hu q => hu q) fun _ _ he => he)

/-- A transaction of steps 2 to 4. -/
theorem bringUp_releasedOnly {x : InitTx} {arg : Word} (hcap : x ≠ .ocrPower)
    (h : Leads (FailsBringUp o next) (FaultsTo o) (do let _ ← transact (.init x) arg; release) s
      fun _ t => ∀ resp, Reaches o (State.afterInitTx next x resp t)) :
    Reaches o (s.goto (.bringUp next (.tx x (.frame arg)))) := by
  refine bringUp_tx (upon_bind.2 ((upon_bind.1 h).mono (fun r t ht => ?_) fun _ _ he => he))
  rw [exchangeEnd_released (tx := .init x) rfl (by simpa using hcap)]
  exact upon_bind.2 (Upon.mono ht (fun _ u hu q => hu q r.resp) fun _ _ he => he)

/-- Steps 7 and 8. -/
theorem bringUp_end (h : Leads (FailsBringUp o next) (FaultsTo o) initEnd s fun _ t => Reaches o (entered next t)) :
    Reaches o (s.goto (.bringUp next .fastClock)) := by
  refine (backward_reaches o).step (bringUp_ne_idle _) (tick_bringUp (p := .fastClock) rfl) ?_
  refine stepClock_leads raised_bringUp (F := FaultsTo o) ?_
  refine (Leads.split placeless_failsBringUp (fun _ => unseen_initStep8)
    (leads_goto placeless_failsBringUp unseen_initEnd h)).mono fun _ t ht => ?_
  refine (backward_reaches o).step (bringUp_ne_idle _) (tick_bringUp (p := .enterReady) rfl) ?_
  cases next <;> exact ht t.seq

/-- Steps 6 to 8. -/
theorem bringUp_power (h : Leads (FailsBringUp o next) (FaultsTo o) initPower s fun _ t => Reaches o (entered next t)) :
    Reaches o (s.goto (.bringUp next (.tx .ocrPower (.frame 0)))) := by
  have h6 : Leads (FailsBringUp o next) (FaultsTo o) (do
      let r ← transact (.init .ocrPower) 0
      recordCapacity r
      release) s fun _ t => Leads (FailsBringUp o next) (FaultsTo o) initEnd t fun _ t => Reaches o (entered next t) :=
    Leads.split placeless_failsBringUp (fun _ => unseen_initEnd) h
  refine bringUp_tx (upon_bind.2 ((upon_bind.1 h6).mono (fun r t ht => ?_) fun _ _ he => he))
  refine upon_bind.2 ((upon_bind.1 ht).mono (fun _ u hu => ?_) fun _ _ he => he)
  exact upon_bind.2 (Upon.mono hu (fun _ v hv q => bringUp_end (hv q)) fun _ _ he => he)

/-- The loop of step 5, `left` rounds left, and the steps after it. -/
theorem bringUp_round {left : Nat} (hs : s.seq = .bringUp next .opCondRound) (hleft : left = Config.nInitIter - s.iter)
    (h : Leads (FailsBringUp o next) (FaultsTo o) (do opCondLoop left; initPower) s fun _ t => Reaches o (entered next t)) :
    Reaches o s := by
  induction left generalizing s with
  | zero =>
    refine (backward_reaches o).step (hs ▸ bringUp_ne_idle _) (tick_bringUp hs) ?_
    rw [if_neg (by omega)]
    exact raised_bringUp _ _ h
  | succ left ih =>
    refine (backward_reaches o).step (hs ▸ bringUp_ne_idle _) (tick_bringUp hs) ?_
    rw [if_pos (by omega)]
    simp only [opCondLoop, bind_assoc] at h
    refine bringUp_released (x := .appOpCond) (by simp) (Leads.keeping (upon_of_keeps tolerant_iter.keeps_appOpCond _)
      (fun _ _ h => h) ((Leads.split placeless_failsBringUp (fun _ => unseen_opCond.bind (unseen_roundRest left))
        (leads_then h)).mono fun _ t ht hiter => ?_))
    refine bringUp_released (x := .opCond) (by simp) (Leads.keeping (upon_of_keeps tolerant_iter.keeps_opCond _)
      (fun _ _ h => h) ((Leads.split placeless_failsBringUp (unseen_roundRest left) ht).mono fun r u hu hiter' => ?_))
    rw [State.afterInitTx]
    rw [roundRest] at hu
    by_cases hdone : r.resp = .byte 0x00
    · rw [if_pos hdone] at hu ⊢
      exact bringUp_power hu
    · rw [if_neg hdone] at hu ⊢
      refine ih (s := u.goto (.bringUp next .opCondRound)) rfl ?_
        (leads_goto placeless_failsBringUp ((unseen_opCondLoop left).bind fun _ => unseen_initPower) hu)
      show left = Config.nInitIter - u.iter
      rw [hiter', hiter]
      show left = Config.nInitIter - (s.iter + 1)
      omega

/-- Steps 5 to 8. -/
theorem bringUp_tail (h : Leads (FailsBringUp o next) (FaultsTo o) initTail s fun _ t => Reaches o (entered next t)) :
    Reaches o (({ s with iter := 0 } : State).goto (.bringUp next .opCondRound)) := by
  have hloop : Leads (FailsBringUp o next) (FaultsTo o) (do opCondLoop Config.nInitIter; initPower) { s with iter := 0 }
      fun _ t => Reaches o (entered next t) := by
    have h5 : Leads (FailsBringUp o next) (FaultsTo o) (initStep5 >>= fun _ => initPower) s
        fun _ t => Reaches o (entered next t) := h
    simp only [initStep5, bind_assoc] at h5
    exact leads_then h5
  exact bringUp_round (s := ({ s with iter := 0 } : State).goto (.bringUp next .opCondRound)) rfl rfl
    (leads_goto placeless_failsBringUp ((unseen_opCondLoop _).bind fun _ => unseen_initPower) hloop)

/-- Steps 2 to 8. -/
theorem bringUp_rest (h : Leads (FailsBringUp o next) (FaultsTo o) initRest s fun _ t => Reaches o (entered next t)) :
    Reaches o (s.goto (.bringUp next (.tx .goIdle (.frame 0)))) := by
  have hA := placeless_failsBringUp (o := o) (next := next)
  have htail := unseen_initTail
  refine bringUp_releasedOnly (x := .goIdle) (by simp) ((Leads.split hA (fun _ => (unseen_releasedOnly _ _).bind fun _ =>
    (unseen_releasedOnly _ _).bind fun _ => htail) h).mono fun _ t ht _ => ?_)
  refine bringUp_releasedOnly (x := .ifCond) (by simp) ((Leads.split hA (fun _ => (unseen_releasedOnly _ _).bind fun _ =>
    htail) ht).mono fun _ u hu _ => ?_)
  refine bringUp_releasedOnly (x := .ocrVoltage) (by simp) ((Leads.split hA (fun _ => htail) hu).mono fun _ v hv _ => ?_)
  exact bringUp_tail hv

/-- Initialization from its first step (R150). -/
theorem bringUp_body (h : Leads (FailsBringUp o next) (FaultsTo o) initBody s fun _ t => Reaches o (entered next t)) :
    Reaches o (({ s with session := .initializing } : State).goto (.bringUp next .slowClock)) := by
  have hA := placeless_failsBringUp (o := o) (next := next)
  have hwake : Unseen (do
      let s ← get
      writeOrAbort (List.replicate s.params.nWake 0xFF) .none
      initRest : Op Unit) := fun q => blind_get (fun _ => rfl) fun _ => ((unseen_write _ _).bind fun _ => unseen_initRest) q
  have hslow : Leads (FailsBringUp o next) (FaultsTo o) (do
      clockOrAbort .slow
      let s ← get
      writeOrAbort (List.replicate s.params.nWake 0xFF) .none
      initRest : Op Unit) { s with session := .initializing } fun _ t => Reaches o (entered next t) := by
    simp only [initBody, initStep1, bind_assoc] at h
    exact leads_then h
  refine (backward_reaches o).step (bringUp_ne_idle _) (tick_bringUp (p := .slowClock) rfl) ?_
  refine stepClock_leads raised_bringUp (F := FaultsTo o) ((Leads.split hA (fun _ => hwake)
    (leads_goto hA ((unseen_clock _).bind fun _ => hwake) hslow)).mono fun _ t ht => ?_)
  refine (backward_reaches o).step (bringUp_ne_idle _) (tick_bringUp (p := .wake) rfl) ?_
  have hwrite : Leads (FailsBringUp o next) (FaultsTo o) (do
      writeOrAbort (List.replicate t.params.nWake 0xFF) .none
      initRest : Op Unit) t fun _ t => Reaches o (entered next t) := upon_bind.1 ht
  refine stepWrite_leads raised_bringUp (F := FaultsTo o) ((Leads.split hA (fun _ => unseen_initRest)
    (leads_goto hA ((unseen_write _ _).bind fun _ => unseen_initRest) hwrite)).mono fun _ u hu => ?_)
  exact bringUp_rest hu

end bringUp

end Sys2Proof.Proofs
end

section
/-! The sector operations step by step against the sector operations run whole (R170 to R192). -/

namespace Sys2Proof.Proofs

open Sys2Proof.Machine Sys2Proof.Laws

/-! ### The sector counter -/

/-- The abort path retires the sector counter, whatever it holds. -/
theorem abort_index (n : Nat) (c : AbortCause) (s : State) : ({ s with k := n } : State).abort c = s.abort c := by
  rw [State.abort, State.abort, State.abortTail, State.abortTail,
    show ({ ({ s with k := n } : State) with cause := some c } : State) = veiled id id (fun _ => n) { s with cause := some c }
      from rfl, xferWrite_veiled]
  rfl

/-- An operation that does not see the sector counter leads the same way whatever it holds. -/
theorem leads_index {α : Type} {A : AbortCause → State → Prop} {F : Prop} {x : Op α} {s : State} {K : α → State → Prop}
    {n : Nat} (hA : ∀ c u, A c u → A c { u with k := n }) (hK : ∀ a u, K a u → K a { u with k := n })
    (hx : Blind (veiled id id fun _ => n) x) (h : Leads A F x s K) : Leads A F x { s with k := n } K := by
  unfold Leads Upon at *
  rw [show ({ s with k := n } : State) = veiled id id (fun _ => n) s from rfl, hx s]
  cases hs : x s with
  | ok a u =>
    rw [hs] at h
    exact fun q => hK a _ (h q)
  | error e u =>
    rw [hs] at h
    cases e with
    | abort c => exact hA c u h
    | fault f => exact h
    | refuse r => trivial

/-! ### The position is not seen -/

/-- A block sent, its response checked, the card's programming waited for (R182, R187). -/
def sentBlock (token : BlockToken) (buf : Buffer) (off : Nat) : Op Unit := do
  sendBlock token buf off
  checkDataResponse
  busyWait

theorem blind_sentBlock (q : Seq → Seq) (r : Result → Result) (n : Nat → Nat) (token : BlockToken) (buf : Buffer)
    (off : Nat) : Blind (veiled q r n) (sentBlock token buf off) :=
  blind_bind (blind_sendBlock q r n _ _ _) fun _ => blind_bind (blind_checkDataResponse q r n) fun _ =>
    blind_busyWait q r n

theorem unseen_busyRelease : Unseen (do busyWait; release) := unseen_busyWait.bind fun _ => unseen_release

theorem unseen_stopRead : Unseen stopRead := (unseen_transact _ _).bind fun _ => unseen_busyRelease

theorem unseen_stopWrite : Unseen stopWrite := (unseen_write _ _).bind fun _ => unseen_busyRelease

theorem unseen_responseAndBusy : Unseen (do checkDataResponse; busyWait) :=
  unseen_checkDataResponse.bind fun _ => unseen_busyWait

theorem unseen_sentBlock (token : BlockToken) (buf : Buffer) (off : Nat) : Unseen (sentBlock token buf off) := fun q =>
  blind_sentBlock (fun _ => q) id id token buf off

theorem unseen_receiveBlocks (buf : Buffer) (k left : Nat) : Unseen (receiveBlocks buf k left) := fun q =>
  blind_receiveBlocks (fun _ => q) id buf k left

theorem unseen_writeBlocks (buf : Buffer) (k left : Nat) : Unseen (writeBlocks buf k left) := fun q =>
  blind_writeBlocks (fun _ => q) id buf k left

/-! ### The stations of a sector operation -/

/-- What the abort path of a sector operation is to lead to. -/
def FailsIo (o : Host.Outcome State Fault Refusal) (t : Transfer) (c : AbortCause) (u : State) : Prop :=
  Reaches o (((u.abort c).afterFailure t).returnCall .failed)

/-- What the end of a sector operation is to lead to. -/
def EndsIo (o : Host.Outcome State Fault Refusal) (u : State) : Prop := Reaches o (u.settleOk.returnCall .ok)

section io
variable {o : Host.Outcome State Fault Refusal} {t : Transfer} {here : IoStep → Seq} {s : State}

theorem placeless_failsIo : Placeless (FailsIo o t) := by
  intro q c u h
  rw [FailsIo, abort_goto]
  exact h

theorem failsIo_index (n : Nat) (c : AbortCause) (u : State) (h : FailsIo o t c u) : FailsIo o t c { u with k := n } := by
  rw [FailsIo, abort_index]
  exact h

/-- The block of a single-sector operation has the index 0. -/
theorem leads_firstIndex {x : Op Unit} (hx : Blind (veiled id id fun _ => 0) x)
    (h : Leads (FailsIo o t) (FaultsTo o) x s fun _ => EndsIo o) :
    Leads (FailsIo o t) (FaultsTo o) x { s with k := 0 } fun _ => EndsIo o :=
  leads_index (failsIo_index 0) (fun _ _ hu => hu) hx h

variable (hne : ∀ p, here p ≠ .idle) (htick : ∀ p s, s.seq = here p → tick s = tickIo t here p s)
include htick

theorem tick_io_data {j : Nat} (d : DataStep) (s : State) (hs : s.seq = here (.data d)) (hk : s.k = j) :
    tick s = .next (tickData (if t.multi then .multi else .single) t.buf (Config.sectorSize * j) (fun d => here (.data d))
      (fun c => here (.cleanup c)) (State.afterIoData t here) d s) := by
  rw [htick _ _ hs, tickIo, hk]

include hne

theorem raised_io (c : AbortCause) (u : State) (h : FailsIo o t c u) :
    Reaches o (u.raised (fun c => here (.cleanup c)) c) := by
  refine (backward_reaches o).step (t := ((u.abort c).afterFailure t).returnCall .failed) (hne (.cleanup c))
    ((htick (.cleanup c) _ rfl).trans ?_) h
  show Host.Outcome.next ((((u.raised (fun c => here (.cleanup c)) c).abortTail c).afterFailure t).returnCall .failed) = _
  rw [abortTail_raised]

/-- A step that makes no call. -/
theorem io_step {p : IoStep} {u : State} (hp : tickIo t here p (s.goto (here p)) = .next u) (h : Reaches o u) :
    Reaches o (s.goto (here p)) :=
  (backward_reaches o).step (hne p) ((htick p _ rfl).trans hp) h

/-- A transaction of a sector operation. -/
theorem io_tx {x : IoTx} {arg : Word}
    (h : Leads (FailsIo o t) (FaultsTo o) (transact (.io x) arg >>= exchangeEnd (Tx.io x).exchange) s
      fun _ u => Reaches o (State.afterIoTx t here x u)) : Reaches o (s.goto (here (.tx x (.frame arg)))) := by
  rw [← exchangeOp_tx] at h
  exact leads_of_frame (x := (Tx.io x).exchange) (here := fun q => here (.tx x q))
    (after := fun _ _ => State.afterIoTx t here x) (s := s.goto (here (.tx x (.frame arg))))
    (backward_reaches o) placeless_failsIo (raised_io hne htick) (fun _ => hne _)
    (fun _ _ hs => (htick _ _ hs).trans (tickIo_tx ..)) (tx_index_le (.io x)) rfl
    (leads_goto placeless_failsIo (unseen_exchangeOp _ _) h)

/-- A data command, or CMD12 (R173 to R186). -/
theorem io_command {x : IoTx} {arg : Word} (hrel : (Tx.io x).releases = false)
    (h : Leads (FailsIo o t) (FaultsTo o) (transact (.io x) arg) s fun _ u => Reaches o (State.afterIoTx t here x u)) :
    Reaches o (s.goto (here (.tx x (.frame arg)))) := by
  refine io_tx hne htick ?_
  rw [funext (exchangeEnd_kept hrel (by simp)), bind_pure]
  exact h

/-- A frame of the pre-erase (R185). -/
theorem io_erase {x : IoTx} {arg : Word} (hrel : (Tx.io x).releases = true)
    (h : Leads (FailsIo o t) (FaultsTo o) (do let r ← transact (.io x) arg; release; pure r) s
      fun _ u => Reaches o (State.afterIoTx t here x u)) : Reaches o (s.goto (here (.tx x (.frame arg)))) := by
  refine io_tx hne htick (upon_bind.2 ((upon_bind.1 h).mono (fun r u hu => ?_) fun _ _ he => he))
  rw [exchangeEnd_released hrel (by simp)]
  exact upon_bind.2 ((upon_bind.1 hu).mono (fun _ _ hv q => hv q) fun _ _ he => he)

/-- The address of the first sector (R170). -/
theorem io_address {x : IoTx} {f : Word → Op Unit} {K : Unit → State → Prop}
    (h : Leads (FailsIo o t) (FaultsTo o) (addressFor t.sector >>= f) s K)
    (hf : ∀ a, Leads (FailsIo o t) (FaultsTo o) (f a) s K → Reaches o (s.goto (here (.tx x (.frame a))))) :
    Reaches o (s.goto (here (.address x))) :=
  io_step hne htick (p := .address x) rfl (hf _ (upon_bind.1 h))

/-- The release at the end. -/
theorem io_release (h : Leads (FailsIo o t) (FaultsTo o) release s fun _ => EndsIo o) :
    Reaches o (s.goto (here (.data .finalRelease))) :=
  leads_of_write (d := .finalRelease) (s := s.goto (here (.data .finalRelease))) (j := s.k) (backward_reaches o)
    (raised_io hne htick) (fun _ => hne _) (tick_io_data htick) rfl rfl rfl
    ((leads_goto placeless_failsIo unseen_release h).mono fun _ _ hu _ => hu)

/-- The busy wait and the release of a stop phase (R177, R189). -/
theorem io_busyRelease {w : BusyAfter} (hw : ∀ u, State.afterIoData t here (.busy w) u = u.goto (here (.data .finalRelease)))
    (h : Leads (FailsIo o t) (FaultsTo o) (do busyWait; release) s fun _ => EndsIo o) :
    Reaches o (s.startPoll.goto (here (.data (.busy w)))) := by
  refine leads_of_busyWait (j := s.k) (backward_reaches o) placeless_failsIo (raised_io hne htick) (fun _ => hne _)
    (tick_io_data htick) rfl ((Leads.split placeless_failsIo (fun _ => unseen_release) h).mono fun _ u hu _ => ?_)
  rw [hw]
  exact io_release hne htick hu

/-- A block received (R176, R179). -/
theorem io_receive {j : Nat} (hk : s.k = j)
    (h : Leads (FailsIo o t) (FaultsTo o) (receiveBlock t.buf (Config.sectorSize * j)) s
      fun _ u => u.k = j → Reaches o (u.afterBlock t here)) : Reaches o (s.startPoll.goto (here (.data .startToken))) :=
  leads_of_receiveBlock (backward_reaches o) placeless_failsIo (raised_io hne htick) (fun _ => hne _) (tick_io_data htick)
    (fun _ => rfl) (fun _ => rfl) hk h

/-- A block sent (R182, R187). -/
theorem io_send {j : Nat} (hk : s.k = j)
    (h : Leads (FailsIo o t) (FaultsTo o) (sentBlock (if t.multi then .multi else .single) t.buf (Config.sectorSize * j)) s
      fun _ u => u.k = j → Reaches o (u.afterBlock t here)) : Reaches o (s.goto (here (.data .sendToken))) := by
  have hA := placeless_failsIo (o := o) (t := t)
  refine leads_of_sendBlock (backward_reaches o) hA (raised_io hne htick) (fun _ => hne _) (tick_io_data htick)
    (fun _ => rfl) (fun _ => rfl) hk ((Leads.split hA (fun _ => unseen_responseAndBusy) h).mono fun _ u hu hku => ?_)
  refine leads_of_dataResponse (s := u.goto (here (.data .dataResponse))) (backward_reaches o) (raised_io hne htick)
    (fun _ => hne _) (tick_io_data htick) rfl hku ((Leads.split hA (fun _ => unseen_busyWait)
      (leads_goto hA unseen_responseAndBusy hu)).mono fun _ v hv hkv => ?_)
  exact leads_of_busyWait (backward_reaches o) hA (raised_io hne htick) (fun _ => hne _) (tick_io_data htick) hkv hv

/-! ### Single-sector operations -/

section single
variable (hsingle : t.multi = false)
include hsingle

/-- The end of a single-sector operation. -/
theorem io_singleEnd {x : Op Unit} (h : Leads (FailsIo o t) (FaultsTo o) (do x; release) s fun _ => EndsIo o) :
    Leads (FailsIo o t) (FaultsTo o) x s fun _ u => Reaches o (u.afterBlock t here) :=
  (Leads.split placeless_failsIo (fun _ => unseen_release) h).mono fun _ u hu => by
    rw [State.afterBlock, hsingle]
    exact io_release hne htick hu

/-- A single-sector read (R173). -/
theorem io_readSingle (hdir : t.dir = .read)
    (h : Leads (FailsIo o t) (FaultsTo o) (readSingleBody t.buf t.sector) s fun _ => EndsIo o) :
    Reaches o (s.goto (here (.address .readOne))) := by
  refine io_address hne htick h fun a ha => io_command hne htick rfl ((Leads.split placeless_failsIo (fun _ =>
    (unseen_receiveBlock _ _).bind fun _ => unseen_release) ha).mono fun _ u hu => ?_)
  rw [State.afterIoTx, State.enterData, hsingle, if_neg (by decide), State.enterBlock, hdir]
  refine io_receive hne htick (s := { u with k := 0 }) (j := 0) rfl
    ((io_singleEnd hne htick hsingle (leads_firstIndex ?_ hu)).mono fun _ _ hv _ => hv)
  exact blind_bind (blind_receiveBlock _ _ _ _ _) fun _ => blind_release _ _ _

/-- A single-sector write (R180). -/
theorem io_writeSingle (hdir : t.dir = .write)
    (h : Leads (FailsIo o t) (FaultsTo o) (writeSingleBody t.buf t.sector) s fun _ => EndsIo o) :
    Reaches o (s.goto (here (.address .writeOne))) := by
  have hsent : ∀ a, Leads (FailsIo o t) (FaultsTo o) (do
      let _ ← transact (.io .writeOne) a
      sendBlock .single t.buf 0
      checkDataResponse
      busyWait
      release) s (fun _ => EndsIo o) → Leads (FailsIo o t) (FaultsTo o) (transact (.io .writeOne) a) s fun _ u =>
      Leads (FailsIo o t) (FaultsTo o) (do sentBlock .single t.buf 0; release) u fun _ => EndsIo o := fun a ha => by
    simp only [sentBlock, bind_assoc]
    exact Leads.split placeless_failsIo (fun _ => (unseen_sendBlock _ _ _).bind fun _ => unseen_checkDataResponse.bind
      fun _ => unseen_busyRelease) ha
  refine io_address hne htick h fun a ha => io_command hne htick rfl ((hsent a ha).mono fun _ u hu => ?_)
  rw [State.afterIoTx, State.enterData, hsingle, if_neg (by decide), State.enterBlock, hdir]
  refine io_send hne htick (s := { u with k := 0 }) (j := 0) rfl
    ((io_singleEnd hne htick hsingle (leads_firstIndex ?_ ?_)).mono fun _ _ hv _ => hv)
  · exact blind_bind (blind_sentBlock _ _ _ _ _ _) fun _ => blind_release _ _ _
  · rw [hsingle]
    exact hu

end single

/-! ### Multi-sector operations -/

section multi
variable (hmulti : t.multi = true)
include hmulti

/-- The blocks of a multi-sector read from index `j` on, and its stop phase (R176, R177). -/
theorem io_receiveBlocks (hdir : t.dir = .read) {left j : Nat} (hleft : left = t.count.toNat - j)
    (h : Leads (FailsIo o t) (FaultsTo o) (do receiveBlocks t.buf j left; stopRead) s fun _ => EndsIo o) :
    Reaches o (s.goto (here (.nextBlock j))) := by
  have hA := placeless_failsIo (o := o) (t := t)
  induction left generalizing s j with
  | zero =>
    refine io_step hne htick (p := .nextBlock j) rfl ?_
    rw [if_neg (by omega), hdir]
    refine io_command hne htick rfl ((Leads.split hA (fun _ => unseen_busyRelease)
      (leads_goto hA unseen_stopRead (x := stopRead) h)).mono fun _ u hu => ?_)
    exact io_busyRelease hne htick (fun _ => rfl) hu
  | succ left ih =>
    refine io_step hne htick (p := .nextBlock j) rfl ?_
    rw [if_pos (by omega), State.enterBlock, hdir]
    have hrest : ∀ n, Unseen (do receiveBlocks t.buf n left; stopRead) := fun n =>
      (unseen_receiveBlocks _ _ _).bind fun _ => unseen_stopRead
    simp only [receiveBlocks, bind_assoc] at h
    refine io_receive hne htick (s := { s.goto (here (.nextBlock j)) with k := j }) (j := j) rfl ((Leads.split hA
      (fun _ => hrest _) (leads_goto hA ((unseen_receiveBlock _ _).bind fun _ => hrest _) (leads_then h))).mono
      fun _ u hu hku => ?_)
    rw [State.afterBlock, hmulti, if_pos rfl, hku]
    exact ih (by omega) hu

/-- The blocks of a multi-sector write from index `j` on, and its stop phase (R188, R189). -/
theorem io_writeBlocks (hdir : t.dir = .write) {left j : Nat} (hleft : left = t.count.toNat - j)
    (h : Leads (FailsIo o t) (FaultsTo o) (do writeBlocks t.buf j left; stopWrite) s fun _ => EndsIo o) :
    Reaches o (s.goto (here (.nextBlock j))) := by
  have hA := placeless_failsIo (o := o) (t := t)
  induction left generalizing s j with
  | zero =>
    refine io_step hne htick (p := .nextBlock j) rfl ?_
    rw [if_neg (by omega), hdir]
    refine leads_of_write (d := .stopToken) (s := (s.goto (here (.nextBlock j))).goto (here (.data .stopToken))) (j := s.k)
      (backward_reaches o) (raised_io hne htick) (fun _ => hne _) (tick_io_data htick) rfl rfl rfl ((Leads.split hA
      (fun _ => unseen_busyRelease) (leads_goto hA unseen_stopWrite (x := stopWrite) h)).mono fun _ u hu _ => ?_)
    exact io_busyRelease hne htick (fun _ => rfl) hu
  | succ left ih =>
    refine io_step hne htick (p := .nextBlock j) rfl ?_
    rw [if_pos (by omega), State.enterBlock, hdir]
    have hrest : ∀ n, Unseen (do writeBlocks t.buf n left; stopWrite) := fun n =>
      (unseen_writeBlocks _ _ _).bind fun _ => unseen_stopWrite
    have hsent : Leads (FailsIo o t) (FaultsTo o) (do
        sentBlock .multi t.buf (Config.sectorSize * j)
        writeBlocks t.buf (j + 1) left
        stopWrite) { s with k := j } fun _ => EndsIo o := by
      rw [writeBlocks, bind_assoc] at h
      have h := leads_then h
      rw [bind_assoc] at h
      exact h
    refine io_send hne htick (s := { s.goto (here (.nextBlock j)) with k := j }) (j := j) rfl ?_
    rw [hmulti, if_pos rfl]
    refine (Leads.split hA (fun _ => hrest _) (leads_goto hA ((unseen_sentBlock _ _ _).bind fun _ => hrest _) hsent)).mono
      fun _ u hu hku => ?_
    rw [State.afterBlock, hmulti, if_pos rfl, hku]
    exact ih (by omega) hu

/-- A multi-sector read (R175 to R177). -/
theorem io_readMulti (hdir : t.dir = .read)
    (h : Leads (FailsIo o t) (FaultsTo o) (readMultiBody t.buf t.sector t.count) s fun _ => EndsIo o) :
    Reaches o (s.goto (here (.address .readMany))) := by
  refine io_address hne htick h fun a ha => io_command hne htick rfl ((Leads.split placeless_failsIo (fun _ =>
    (unseen_receiveBlocks _ _ _).bind fun _ => unseen_stopRead) ha).mono fun _ u hu => ?_)
  rw [State.afterIoTx, State.enterData, hmulti, if_pos rfl]
  exact io_receiveBlocks hne htick hmulti hdir rfl hu

/-- A multi-sector write (R185 to R189). -/
theorem io_writeMulti (hdir : t.dir = .write)
    (h : Leads (FailsIo o t) (FaultsTo o) (writeMultiBody t.buf t.sector t.count) s fun _ => EndsIo o) :
    Reaches o (s.goto (here (.tx .appErase (.frame 0)))) := by
  have hA := placeless_failsIo (o := o) (t := t)
  have hblocks : Unseen (do writeBlocks t.buf 0 t.count.toNat; stopWrite) :=
    (unseen_writeBlocks _ _ _).bind fun _ => unseen_stopWrite
  have haddress : Unseen (do
      let a ← addressFor t.sector
      let _ ← transact (.io .writeMany) a
      writeBlocks t.buf 0 t.count.toNat
      stopWrite) := fun q => blind_bind (blind_addressFor (fun _ => q) id id _) fun _ =>
    ((unseen_transact _ _).bind fun _ => hblocks) q
  refine io_erase hne htick rfl ((Leads.split hA (fun _ => (unseen_released _ _).bind fun _ => haddress) h).mono
    fun _ u hu => ?_)
  refine io_erase hne htick (s := u) rfl ((Leads.split hA (fun _ => haddress) hu).mono fun _ v hv => ?_)
  refine io_address hne htick (s := v) hv fun a ha => io_command hne htick rfl ((Leads.split hA (fun _ => hblocks) ha).mono
    fun _ w hw => ?_)
  rw [State.afterIoTx, State.enterData, hmulti, if_pos rfl]
  exact io_writeBlocks hne htick hmulti hdir rfl hw

end multi

/-- A sector operation from its first step (R173, R175, R180, R185). -/
theorem io_transfer (h : Leads (FailsIo o t) (FaultsTo o) (transferBody t) s fun _ => EndsIo o) :
    Reaches o (s.goto (here t.entry)) := by
  rcases t with ⟨dir, multi, buf, sector, count⟩
  cases dir <;> cases multi
  · exact io_readSingle hne htick rfl rfl h
  · exact io_readMulti hne htick rfl rfl h
  · exact io_writeSingle hne htick rfl rfl h
  · exact io_writeMulti hne htick rfl rfl h

end io

end Sys2Proof.Proofs
end

section
/-! Initializations, sector operations and the host's calls: the steps begun lead to what their meaning gives (R150, R171, R210
to R219). -/

namespace Sys2Proof.Proofs

open Sys2Proof.Machine Sys2Proof.Laws

/-! ### The return of a call -/

theorem returnCall_idle {s : State} (h : s.seq = .idle) (r : Result) : s.returnCall r = s.returning r := by
  rw [State.returnCall, goto_idle h]

theorem abort_seq (c : AbortCause) (s : State) : (s.abort c).seq = .idle := congrArg State.seq (abort_idle c s).symm

theorem afterFailure_seq (t : Transfer) (s : State) : (s.afterFailure t).seq = s.seq := by
  obtain ⟨m, n, h⟩ := afterFailure_eq t s
  rw [h]

theorem afterFailure_goto (t : Transfer) (q : Seq) (s : State) : (s.goto q).afterFailure t = (s.afterFailure t).goto q := by
  rcases t with ⟨dir, multi, buf, sector, count⟩
  cases dir <;> rfl

theorem settled_stop {body : Op Unit} {s u : State} {f : Fault} (h : body s = .error (.fault f) u) :
    settled body s = .error (.fault f) u := by rw [settled, h]

section calls
variable {o : Host.Outcome State Fault Refusal} {s : State}

/-- What the end of a settled operation makes of each end of its steps. -/
theorem leads_settled {A : AbortCause → State → Prop} {F : Prop} {body : Op Unit} {K : Unit → State → Prop}
    (hok : ∀ u : State, settled body s = .ok true u.settleOk → ∀ q, K () (u.goto q))
    (habort : ∀ c (u : State), settled body s = .ok false (u.abort c) → A c u)
    (hfault : ∀ u, settled body s = .error (.fault .tableUnbuilt) u → F) : Leads A F body s K := by
  cases h : body s with
  | ok a u => exact (upon_of_ok h).2 (hok u (settled_ok h))
  | error e u =>
    refine (upon_of_error h).2 ?_
    cases e with
    | abort c => exact habort c u (settled_abort h)
    | fault f => cases f; exact hfault u (settled_stop h)
    | refuse r => trivial

/-! ### Initialization -/

/-- An initialization that returns to the host. -/
theorem carried_initialize : Reaches (exec .sessionInitialize s) s.enterInit := by
  have hexec : exec .sessionInitialize s = runAlone (settled initBody) okOrFailed s := rfl
  refine bringUp_body (next := none) (leads_settled (fun u h q => ?_) (fun c u h => ?_) fun u h => ?_)
  · rw [hexec, runAlone_ok h]
    exact reaches_next _
  · show Reaches _ ((u.abort c).returnCall .failed)
    rw [hexec, runAlone_ok h, returnCall_idle (abort_seq c u)]
    exact reaches_next _
  · exact hexec.trans (runAlone_fault h)

theorem carried_ensureReady : Carried (start .ensureReady s) (exec .ensureReady s) := by
  rw [start, exec, execEnsureReady]
  split
  · next h =>
    rw [runAlone_ok (ensureReady_ready h)]
    exact reaches_next _
  · next h =>
    have hexec : runAlone ensureReady okOrFailed s = exec .sessionInitialize s := by
      rw [runAlone, ensureReady, op_bind_ok (op_get s), if_neg h]
      rfl
    rw [hexec]
    exact carried_initialize

theorem carried_hostInitialize (hidle : s.seq = .idle) (drive : Nat) :
    Carried (start (.hostInitialize drive) s) (exec (.hostInitialize drive) s) := by
  rw [start, startInitialize, exec, execHostInitialize, whenIdle_of_idle hidle]
  split
  · exact reaches_next _
  · exact carried_initialize

/-! ### Sector operations -/

/-- A sector operation that ends a call `op`: whose result is its own, the buffer of a failed read being freed (R192). -/
theorem leads_sector {α : Type} {t : Transfer} {op : Op α} {ret : α → Result} (ho : o = runAlone op ret s)
    (hok : ∀ u, transferOp t s = .ok true u → ∃ a, op s = .ok a u ∧ ret a = .ok)
    (hfailed : ∀ u, transferOp t s = .ok false u → ∃ a, op s = .ok a (u.afterFailure t) ∧ ret a = .failed)
    (hfault : ∀ e u, transferOp t s = .error e u → op s = .error e u) :
    Leads (FailsIo o t) (FaultsTo o) (transferBody t) s fun _ => EndsIo o := by
  rw [transferOp_eq] at hok hfailed hfault
  refine leads_settled (fun u h q => ?_) (fun c u h => ?_) fun u h => ?_
  · obtain ⟨a, hop, hret⟩ := hok _ h
    rw [ho, runAlone_ok hop, hret]
    exact reaches_next _
  · obtain ⟨a, hop, hret⟩ := hfailed _ h
    rw [FailsIo, ho, runAlone_ok hop, hret, returnCall_idle ((afterFailure_seq t _).trans (abort_seq c u))]
    exact reaches_next _
  · exact ho.trans (runAlone_fault (hfault _ _ h))

/-- A sector operation run alone, its buffer freed when a read failed (R172, R192). -/
def aloneSector (t : Transfer) : Op Bool :=
  match t.dir with
  | .read => scrubOnFailure t.buf t.count (transferOp t)
  | .write => transferOp t

theorem aloneSector_ok {t : Transfer} {u : State} (h : transferOp t s = .ok true u) : aloneSector t s = .ok true u := by
  rcases t with ⟨dir, multi, buf, sector, count⟩
  cases dir
  · exact op_bind_ok h
  · exact h

theorem aloneSector_failed {t : Transfer} {u : State} (h : transferOp t s = .ok false u) :
    aloneSector t s = .ok false (u.afterFailure t) := by
  rcases t with ⟨dir, multi, buf, sector, count⟩
  cases dir
  · exact op_bind_ok h
  · exact h

theorem aloneSector_stop {t : Transfer} {e : Stop} {u : State} (h : transferOp t s = .error e u) :
    aloneSector t s = .error e u := by
  rcases t with ⟨dir, multi, buf, sector, count⟩
  cases dir
  · exact op_bind_error h
  · exact h

theorem carried_sector (t : Transfer) :
    Carried (startSector t s) (runWithBuffer (t.buf.holds t.count) (aloneSector t) okOrFailed s) := by
  rw [startSector, runWithBuffer]
  split
  · exact io_transfer (here := .sector t) (fun _ => nofun) (fun p s hs => by rw [tick, hs])
      (leads_sector rfl (fun u h => ⟨_, aloneSector_ok h, rfl⟩) (fun u h => ⟨_, aloneSector_failed h, rfl⟩)
        fun e u h => aloneSector_stop h)
  · rfl

/-! ### The host's sector calls -/

theorem rangedTransfer_inRange {t : Transfer} (h : inRange s.addressing t.sector = true) :
    rangedTransfer t s = (do let ok ← transferOp t; pure (okOrFailed ok)) s := by
  rw [rangedTransfer, op_bind_ok (show addressingMode s = .ok s.addressing s from rfl), if_pos h]

theorem rangedTransfer_outOfRange {t : Transfer} (h : ¬ inRange s.addressing t.sector = true) :
    rangedTransfer t s = .ok (.rejected .outOfRange) s := by
  rw [rangedTransfer, op_bind_ok (show addressingMode s = .ok s.addressing s from rfl), if_neg h]
  rfl

/-- A sector call after its ready check passed. -/
theorem sectorAfter_ok {t : Transfer} {r : Result} {u : State} (h : rangedTransfer t s = .ok r u) :
    sectorAfter t true s = .ok r (if r = .ok then u else u.afterFailure t) := by
  rw [sectorAfter, if_pos rfl, op_bind_ok h, sectorEnd]
  split <;> rfl

theorem sectorAfter_stop {t : Transfer} {e : Stop} {u : State} (h : rangedTransfer t s = .error e u) :
    sectorAfter t true s = .error e u := by
  rw [sectorAfter, if_pos rfl, op_bind_error h]

/-- The range check and the transfer (R213 to R215). -/
theorem carried_range {t : Transfer} (hidle : s.seq = .idle) :
    Reaches (runAlone (sectorAfter t true) id s) (s.goto (.transfer t .range)) := by
  have hne : ∀ p, Seq.transfer t p ≠ .idle := fun _ => nofun
  have htick : ∀ p s, s.seq = Seq.transfer t p → tick s = tickIo t (.transfer t) p s := fun p s hs => by rw [tick, hs]
  refine io_step hne htick (p := .range) rfl ?_
  show Reaches _ (if inRange s.addressing t.sector then s.goto (.transfer t t.entry)
    else ((s.goto (.transfer t .range)).afterFailure t).returnCall (.rejected .outOfRange))
  split
  · next h =>
    have hranged := rangedTransfer_inRange h
    refine io_transfer hne htick (leads_sector rfl (fun u hu => ⟨.ok, ?_, rfl⟩) (fun u hu => ⟨.failed, ?_, rfl⟩)
      fun e u hu => sectorAfter_stop (hranged.trans (op_bind_error hu)))
    · exact sectorAfter_ok (r := .ok) (hranged.trans (op_bind_ok hu))
    · exact sectorAfter_ok (r := .failed) (hranged.trans (op_bind_ok hu))
  · next h =>
    have hout : sectorAfter t true s = .ok (.rejected .outOfRange) (s.afterFailure t) :=
      sectorAfter_ok (rangedTransfer_outOfRange h)
    rw [runAlone_ok hout, afterFailure_goto]
    show Reaches _ ((s.afterFailure t).returnCall (.rejected .outOfRange))
    rw [returnCall_idle ((afterFailure_seq t s).trans hidle)]
    exact reaches_next _

/-- A sector call past its parameter checks (R171, R213, R214). -/
theorem carried_sectorCall (hidle : s.seq = .idle) (t : Transfer) :
    Reaches (runAlone (sectorCall t) id s) (s.enterCall t) := by
  rw [State.enterCall]
  split
  · next h =>
    rw [runAlone_sectorCall (ensureReady_ready h)]
    exact carried_range hidle
  · next h =>
    have hready : ensureReady s = settled initBody s := by
      rw [ensureReady, op_bind_ok (op_get s), if_neg h]
      rfl
    refine bringUp_body (next := some t) (leads_settled (fun u hu q => ?_) (fun c u hu => ?_) fun u hu => ?_)
    · rw [runAlone_sectorCall (hready.trans hu)]
      exact carried_range (s := u.settleOk) rfl
    · rw [FailsBringUp, runAlone_sectorCall (hready.trans hu), runAlone_ok (sectorAfter_failed t _)]
      show Reaches _ (((u.abort c).afterFailure t).returnCall .failed)
      rw [returnCall_idle ((afterFailure_seq t _).trans (abort_seq c u))]
      exact reaches_next _
    · rw [FaultsTo, sectorCall_eq]
      exact runAlone_fault (op_bind_error (hready.trans hu))

theorem carried_hostSector (hidle : s.seq = .idle) (drive : Nat) (t : Transfer) :
    Carried (startSectorCall drive t s) (checkedSectorCall drive t s) := by
  rw [startSectorCall, checkedSectorCall]
  cases checkParams drive t.buf t.count with
  | pass => exact carried_sectorCall hidle t
  | reject r => exact reaches_next _
  | bufferTooShort => rfl

end calls

end Sys2Proof.Proofs
end

section
/-! The requests of an idle block, carried out by its steps (R8, R210, R249, R261; O53, O54). -/

namespace Sys2Proof.Proofs

open Sys2Proof.Machine Sys2Proof.Laws

/-- From an idle sequencer every operation begun is carried to what its meaning gives. -/
theorem carried {s : State} (hidle : s.seq = .idle) (i : Instr) : Carried (start i s) (exec i s) := by
  have htx : s.seq.tx = none := by rw [hidle]; rfl
  cases i with
  | cmd0 => exact carried_releasedOnly hidle (tx := .init .goIdle) rfl rfl (by simp) (fun _ _ _ => rfl) rfl
  | cmd8 => exact carried_releasedOnly hidle (tx := .init .ifCond) rfl rfl (by simp) (fun _ _ _ => rfl) rfl
  | cmd58 =>
    rw [exec_cmd58_voltage (by simp [htx])]
    exact carried_releasedOnly hidle (tx := .init .ocrVoltage) rfl rfl (by simp) (fun _ _ _ => rfl) rfl
  | cmd12 => exact carried_cmd12 hidle
  | cmd17 arg => exact carried_data hidle (i := .cmd17 arg) (tx := .io .readOne) rfl rfl (by simp) fun _ _ _ => rfl
  | cmd18 arg => exact carried_data hidle (i := .cmd18 arg) (tx := .io .readMany) rfl rfl (by simp) fun _ _ _ => rfl
  | cmd24 arg => exact carried_data hidle (i := .cmd24 arg) (tx := .io .writeOne) rfl rfl (by simp) fun _ _ _ => rfl
  | cmd25 arg => exact carried_data hidle (i := .cmd25 arg) (tx := .io .writeMany) rfl rfl (by simp) fun _ _ _ => rfl
  | cmd55 =>
    rw [exec_cmd55_opCond (by simp [htx])]
    exact carried_released hidle (tx := .init .appOpCond) rfl rfl rfl (by simp) (fun _ _ _ => rfl) rfl
  | acmd23 arg =>
    exact carried_released hidle (i := .acmd23 arg) (tx := .io .eraseCount) rfl rfl rfl (by simp) (fun _ _ _ => rfl) rfl
  | acmd41 => exact carried_released hidle (tx := .init .opCond) rfl rfl rfl (by simp) (fun _ _ _ => rfl) rfl
  | sendCmd index arg shape => exact carried_sendCmd hidle index arg shape
  | pollResponse => exact carried_pollResponse hidle rfl (fun _ _ _ => rfl) []
  | r1 b => exact carried_pollResponse hidle rfl (fun _ _ _ => rfl) [.ok [b]]
  | r3 b ocr =>
    rw [exec, execR3, if_neg (by simp [htx])]
    exact carried_checked hidle (tx := .init .ocrVoltage) rfl (by simp) (fun _ _ _ => rfl) _
  | r7 b echo => exact carried_checked hidle (tx := .init .ifCond) rfl (by simp) (fun _ _ _ => rfl) _
  | tokenStartBlock =>
    rw [exec, execTokenStartBlock, hidle, if_neg (by decide)]
    exact carried_pollToken hidle rfl rfl [.ok [0xFE]]
  | pollToken => exact carried_pollToken hidle rfl rfl []
  | tokenStartMultiWrite =>
    refine (execTokenStartMultiWrite_eq s).symm ▸ ?_
    exact carried_write hidle (i := .tokenStartMultiWrite) (d := .sendToken) rfl rfl fun _ _ _ _ => rfl
  | tokenStopTran => exact carried_tokenStopTran hidle
  | dataResponseAccepted upper => exact carried_dataResponse hidle rfl rfl _
  | checkDataResponse => exact carried_dataResponse hidle rfl rfl []
  | busyWait => exact carried_busyWait hidle
  | release => exact carried_write hidle rfl rfl fun _ _ _ _ => rfl
  | receiveBlock buf off => exact carried_receiveBlock hidle buf off
  | sendBlock token buf off => exact carried_sendBlock hidle token buf off
  | abortPath c => exact carried_abortPath c s
  | sessionInitialize => exact carried_initialize
  | ensureReady => exact carried_ensureReady
  | hostInitialize drive => exact carried_hostInitialize hidle drive
  | hostRead drive buf sector count =>
    rw [exec, execHostRead, whenIdle_of_idle hidle]
    exact carried_hostSector hidle drive _
  | hostWrite drive buf sector count =>
    rw [exec, execHostWrite, whenIdle_of_idle hidle]
    exact carried_hostSector hidle drive _
  | readSingle buf sector =>
    rw [exec, execReadSingle]
    exact carried_sector { dir := .read, multi := false, buf := buf, sector := sector, count := 1 }
  | readMulti buf sector count =>
    exact carried_sector { dir := .read, multi := true, buf := buf, sector := sector, count := count }
  | writeSingle buf sector =>
    rw [exec, execWriteSingle]
    exact carried_sector { dir := .write, multi := false, buf := buf, sector := sector, count := 1 }
  | writeMulti buf sector count =>
    exact carried_sector { dir := .write, multi := true, buf := buf, sector := sector, count := count }
  | hostStatus | hostSync | hostTimestamp | buildTable | fold | compute | assemble | xferWrite | xferRead | xferReadWrite
  | xferSetClock | cleanup | addressFor | resetBlock =>
    rw [start_of_runsInOneStep rfl]
    exact carried_same _

/-- The step that takes a request, and the steps after it. -/
theorem runSteps_carried {s : State} {first o : Host.Outcome State Fault Refusal} (hstep : step s = first)
    (h : Carried first o) : ∃ n, runSteps (n + 1) s = o := by
  subst hstep
  cases hs : step s with
  | next u =>
    rw [hs] at h
    obtain ⟨n, hn⟩ := h
    exact ⟨n, (runSteps_succ n hs).trans hn⟩
  | fault f =>
    rw [hs] at h
    exact ⟨0, (runSteps_fault 0 hs).trans h.symm⟩
  | refused r =>
    rw [hs] at h
    exact ⟨0, (runSteps_refused 0 hs).trans h.symm⟩

/-- Settles O54: the step that takes the request begins the operation, and `carried` tells the rest. -/
theorem sequencerRunsTheWholeCall : Obligations.SequencerRunsTheWholeCall := fun s i hidle =>
  runSteps_carried (step_request (s := { s with requests := .start i :: s.requests }) hidle rfl) (carried hidle i)

/-! ### Requests that come as bytes -/

section wire
variable {s : State} {rest : List Request} {slot : Slot} {bytes : List Byte} {i : Instr} {e : DecodeError}
  (hidle : s.seq = .idle) (hr : s.requests = .wire slot bytes :: rest)
include hidle hr

/-- Bytes that are a unit of their slot. -/
theorem runSteps_decoded (h : decode slot bytes = .ok i) :
    ∃ n, runSteps (n + 1) s = exec i { s with requests := rest } := by
  have hstep : step s = start i { s with requests := rest } := by
    rw [step_request hidle hr, serve, startWire, h]
  exact runSteps_carried hstep (carried (s := { s with requests := rest }) hidle i)

/-- Bytes that are no unit of their slot, with an operation that meets them. -/
theorem runSteps_undecoded {answers : List Answer} (h : decode slot bytes = .error e)
    (hop : operationFor bytes e = some (i, answers)) :
    ∃ n, runSteps (n + 1) s = exec i ({ s with requests := rest }.deliver answers) := by
  have hstep : step s = start i ({ s with requests := rest }.deliver answers) := by
    simp only [step_request hidle hr, serve, startWire, h, hop]
  exact runSteps_carried hstep (carried (s := { s with requests := rest }.deliver answers) hidle i)

/-- Bytes that are no frame. -/
theorem step_refused (h : decode slot bytes = .error e) (hop : operationFor bytes e = none) :
    step s = .refused (.undecodable e) := by
  simp only [step_request hidle hr, serve, startWire, h, hop]

end wire

/-- R86: what a command's index and argument are refused for names the index. -/
theorem decodeCommand_error {index : BitVec 6} {arg : Word} {e : DecodeError} (h : decodeCommand index arg = .error e) :
    e = .commandNotSent index ∨ e = .badArgument index := by
  have fixed : ∀ {want : Word} {i : Instr}, (if arg = want then Except.ok i else .error (.badArgument index)) = .error e →
      e = .badArgument index := fun h => by
    split at h
    · cases h
    · exact (Except.error.inj h).symm
  unfold decodeCommand at h
  split at h
  case h_4 | h_5 | h_6 | h_7 | h_8 => cases h
  case h_12 => exact .inl (Except.error.inj h).symm
  all_goals exact .inr (fixed h)

/-- R86: a frame of a command the session does not send is the frame of its index and argument. -/
theorem encodeFrame_of_unsent {bytes : List Byte} {index : BitVec 6} {e : DecodeError} (h : decode .command bytes = .error e)
    (he : e = .commandNotSent index ∨ e = .badArgument index) :
    bytes = encodeFrame index.toNat (be32OfBytes ((bytes.drop 1).take 4)) := by
  generalize hslot : Slot.command = slot at h
  unfold decode at h
  split at h
  case h_1 b0 b1 b2 b3 b4 b5 =>
    unfold decodeFrame at h
    split at h <;> [(cases h; simp at he); rename_i hstart]
    split at h <;> [(cases h; simp at he); skip]
    split at h <;> [(cases h; simp at he); rename_i hcrc]
    have hindex : index = b0.extractLsb' 0 6 := by
      rcases decodeCommand_error h with rfl | rfl <;> simpa [eq_comm] using he
    have hhead := frameHead_of_start (by simpa using hstart) b1 b2 b3 b4
    have hlast : b5 = frameByte5 (computeWith builtTable [b0, b1, b2, b3, b4]) := by simpa using hcrc
    show [b0, b1, b2, b3, b4, b5] = encodeFrame index.toNat (be32 b1 b2 b3 b4)
    rw [hindex, encodeFrame, hhead, ← hlast]
    rfl
  case h_10 =>
    cases h
    simp at he
  all_goals cases hslot

/-- R87: one byte reaches a poll as it is. -/
theorem arriving_one (b : Byte) : arriving [b] = [.ok [b]] := by
  by_cases h : b = 0xFF
  · subst h
    exact arriving_idle 1
  · exact arriving_idle_then 0 [] h

/-- Settles O53: the request's first step is `start` of its operation, on the bytes it brings. -/
theorem stepRunsTheNextRequest : Obligations.StepRunsTheNextRequest := by
  intro s rest hidle
  refine ⟨fun hr => ?_,
    fun i hr => runSteps_carried (step_request hidle hr) (carried (s := { s with requests := rest }) hidle i),
    fun i hi hr => (step_request hidle hr).trans (start_of_runsInOneStep hi _),
    fun slot bytes i hr h => runSteps_decoded hidle hr h, fun nbits w i h => ?_,
    fun b hr h => ?_, fun b hr h => runSteps_undecoded hidle hr h (answers := [.ok [b]]) rfl,
    fun slot m hr h => ?_, fun slot m b more hb hr h => ?_, fun bytes index hr h => ?_, fun slot bytes e hr h he => ?_⟩
  · rw [step, if_pos hidle, serveNext, hr]
  · have hdecode : decode .unclassified (tableBytes nbits w) = .ok i := by
      unfold decodeTableWord at h
      split at h
      · cases h; assumption
      · cases h
    have hsame : ({ s.withFetchWord nbits w with requests := s.requests } : State) = s := goto_idle hidle
    have hrun := runSteps_decoded (s := s.withFetchWord nbits w) (rest := s.requests) rfl rfl hdecode
    rwa [hsame] at hrun
  · exact runSteps_undecoded hidle hr h (answers := [.ok [b]]) (by rw [← arriving_one]; rfl)
  · exact runSteps_undecoded hidle hr h (answers := idleAnswers m) (by rw [← arriving_idle]; rfl)
  · have hrun := runSteps_undecoded hidle hr h (i := .pollResponse) (answers := idleAnswers m ++ [.ok [b]])
      (by rw [← arriving_idle_then m more hb]; rfl)
    simpa [State.deliver] using hrun
  · obtain ⟨e, he, hcause⟩ : ∃ e, decode .command bytes = .error e ∧
        (e = .commandNotSent index ∨ e = .badArgument index) := by
      rcases h with h | h
      · exact ⟨_, h, .inl rfl⟩
      · exact ⟨_, h, .inr rfl⟩
    obtain ⟨n, hn⟩ := runSteps_undecoded hidle hr he (i := .sendCmd index.toNat (be32OfBytes ((bytes.drop 1).take 4))
      (shapeOfIndex index.toNat)) (answers := []) (by rcases hcause with rfl | rfl <;> rfl)
    exact ⟨n, _, _, hn, encodeFrame_of_unsent he hcause⟩
  · exact step_refused hidle hr h (by rcases he with rfl | rfl | rfl | rfl <;> rfl)

end Sys2Proof.Proofs
end

section
/-! An operation in progress ends, whatever the environment answers (R234, R273; O56): each position of the sequencer leads to
its end when the positions after it do. -/

namespace Sys2Proof.Proofs

open Sys2Proof.Machine Sys2Proof.Laws

/-- The operation in progress ends, or stops at a fold with no table. -/
inductive Ends : State → Prop where
  | idle {s : State} : s.seq = .idle → Ends s
  | step {s t : State} : s.seq ≠ .idle → tick s = .next t → Ends t → Ends s
  | fault {s : State} : s.seq ≠ .idle → tick s = .fault .tableUnbuilt → Ends s

theorem backward_ends : Backward Ends True where
  step := .step
  fault hne ht _ := .fault hne ht

/-- With the table built the run reaches an idle sequencer. -/
theorem Ends.runs {s : State} (h : Ends s) (hi : s.Inv) : ∃ n t, runSteps n s = .next t ∧ t.seq = .idle := by
  induction h with
  | idle hs => exact ⟨0, _, rfl, hs⟩
  | step hne ht _ ih =>
    have hstep := (step_tick hne).trans ht
    obtain ⟨n, u, hn, hu⟩ := ih (everyStepKeepsTheInvariant _ _ hi hstep)
    exact ⟨n + 1, u, (runSteps_succ n hstep).trans hn, hu⟩
  | fault hne ht =>
    obtain ⟨u, hu⟩ := tick_next hi.tableBuilt
    rw [hu] at ht
    cases ht

theorem ends_returnCall (r : Result) (s : State) : Ends (s.returnCall r) := .idle rfl

/-- The abort path asks for nothing: its step ends the operation. -/
def Anyhow (_ : AbortCause) (_ : State) : Prop := True

theorem placeless_anyhow : Placeless Anyhow := fun _ _ _ h => h

/-- What holds of every state holds at the end of an operation. -/
theorem leads_anyhow {α : Type} {x : Op α} {s : State} {K : α → State → Prop} (h : ∀ a t, K a t) :
    Leads Anyhow True x s K := by
  cases hx : x s with
  | ok a t => exact (upon_of_ok hx).2 fun q => h a _
  | error e t =>
    refine (upon_of_error hx).2 ?_
    cases e <;> trivial

/-- What holds of every state with the round counter of the first holds at the end of an operation that keeps it. -/
theorem leads_sameRound {α : Type} {x : Op α} {s : State} {K : α → State → Prop} {n : Nat} (hn : s.iter = n)
    (hx : Keeps (fun s t => t.iter = s.iter) x) (h : ∀ a t, t.iter = n → K a t) : Leads Anyhow True x s K :=
  Leads.keeping (R := fun t => t.iter = n) ((upon_of_keeps hx s).mono (fun _ _ ht => ht.trans hn) fun _ _ he => he)
    (fun _ _ ht => ht) (leads_anyhow h)

/-! ### The round counter in a transaction -/

theorem keeps_exchangeEnd_iter (x : Exchange) (r : Reply) : Keeps (fun s t => t.iter = s.iter) (exchangeEnd x r) := by
  refine tolerant_iter.keeps_bind (fun s => ?_) fun _ => ?_
  · show (State.noted x r.value s).iter = s.iter
    unfold State.noted
    split <;> rfl
  · split
    · exact tolerant_iter.keeps_bind tolerant_iter.keeps_release fun _ => tolerant_iter.keeps_pure _
    · exact tolerant_iter.keeps_pure _

theorem keeps_exchangeJudged_iter (x : Exchange) (r : Reply) : Keeps (fun s t => t.iter = s.iter) (exchangeJudged x r) :=
  tolerant_iter.keeps_bind (tolerant_iter.keeps_abortOn _) fun _ => keeps_exchangeEnd_iter x r

theorem keeps_replyTail_iter (shape : Shape) (resp : Resp) : Keeps (fun s t => t.iter = s.iter) (replyTail shape resp) := by
  match shape, resp with
  | .r1, _ => exact tolerant_iter.keeps_pure _
  | .r5, .timeout => exact tolerant_iter.keeps_pure _
  | .r5, .byte _ => exact tolerant_iter.keeps_bind (tolerant_iter.keeps_read _ _) fun _ => tolerant_iter.keeps_pure _

theorem keeps_pollTail_iter (shape : Shape) (left : Nat) : Keeps (fun s t => t.iter = s.iter) (pollTail shape left) := by
  have loop : Keeps (fun s t => t.iter = s.iter) (pollResponseLoop left) := by
    induction left with
    | zero => exact tolerant_iter.keeps_pure _
    | succ left ih =>
      refine tolerant_iter.keeps_bind (tolerant_iter.keeps_readByte _) fun b =>
        tolerant_iter.keeps_bind (fun s => (rfl : s.countPoll.iter = s.iter)) fun _ => ?_
      split
      · exact ih
      · exact tolerant_iter.keeps_pure _
  exact tolerant_iter.keeps_bind loop fun r =>
    tolerant_iter.keeps_bind (fun s => (rfl : s.retirePolls.iter = s.iter)) fun _ => keeps_replyTail_iter shape r

/-! ### A transaction and a data phase -/

section parts
variable {x : Exchange} {cleanup : AbortCause → Seq} (hcleanup : ∀ c t, Ends (State.raised cleanup c t))
include hcleanup

/-- Every position of a transaction ends when what follows it does. -/
theorem ends_tx {here : TxStep → Seq} {after : Resp → Option Word → State → State} {n : Nat} {s : State} {p : TxStep}
    (hne : ∀ p, here p ≠ .idle) (htick : ∀ p s, s.seq = here p → tick s = tickTx x here cleanup after p s)
    (hafter : ∀ r v t, t.iter = n → Ends (after r v t)) (hs : s.seq = here p) (hn : s.iter = n) : Ends s := by
  have hraise : ∀ c t, Anyhow c t → Ends (t.raised cleanup c) := fun c t _ => hcleanup c t
  have hjudged : ∀ (r : Reply) u, u.iter = n → Leads Anyhow True (exchangeJudged x r) u
      fun a t => Ends (after a.resp a.value t) := fun r u hu =>
    leads_sameRound hu (keeps_exchangeJudged_iter x r) fun a t => hafter a.resp a.value t
  have hpoll : ∀ u : State, u.seq = here .poll → u.iter = n → Ends u := fun u hu hun =>
    leads_of_poll backward_ends placeless_anyhow hraise hne htick hu rfl (leads_sameRound hun
      (tolerant_iter.keeps_bind (keeps_pollTail_iter _ _) fun r => keeps_exchangeJudged_iter x r)
      fun a t => hafter a.resp a.value t)
  cases p with
  | frame arg =>
    cases hb : s.tableBuilt with
    | false => exact .fault (hs ▸ hne _) (by rw [htick _ _ hs, tickTx, if_neg (by simp [hb])])
    | true =>
      refine .step (hs ▸ hne _) ((htick _ _ hs).trans (if_pos hb)) (stepWrite_leads hraise (F := True) ?_)
      exact leads_sameRound hn (tolerant_iter.keeps_write _ _) fun _ t ht => hpoll _ rfl ht
  | poll => exact hpoll s hs hn
  | trailing b =>
    exact leads_of_trailing backward_ends placeless_anyhow hraise hne htick hs (leads_sameRound hn
      (tolerant_iter.keeps_bind (keeps_replyTail_iter _ _) fun r => keeps_exchangeJudged_iter x r)
      fun a t => hafter a.resp a.value t)
  | judge resp value =>
    exact leads_of_judge backward_ends placeless_anyhow hraise hne htick (r := ⟨resp, value⟩) hs (hjudged _ s hn)
  | releaseTx resp =>
    exact leads_of_releaseTx backward_ends placeless_anyhow hraise hne htick (r := ⟨resp, none⟩) hs (leads_sameRound hn
      (tolerant_iter.keeps_bind tolerant_iter.keeps_release fun _ => tolerant_iter.keeps_pure _)
      fun a t => hafter a.resp a.value t)

/-- Every position of a data phase ends when what follows it does. -/
theorem ends_data {token : BlockToken} {buf : Buffer} {off j : Nat} {here : DataStep → Seq}
    {after : DataStep → State → State} {s : State} {d : DataStep} (hne : ∀ d, here d ≠ .idle)
    (htick : ∀ d s, s.seq = here d → s.k = j → tick s = .next (tickData token buf off here cleanup after d s))
    (hafter : ∀ t, t.k = j → Ends (after d t)) (hs : s.seq = here d) (hk : s.k = j) : Ends s := by
  have hraise : ∀ c t, Anyhow c t → Ends (t.raised cleanup c) := fun c t _ => hcleanup c t
  have hend : ∀ {α : Type} (op : Op α), Leads Anyhow True op s fun _ t => t.k = j → Ends (after d t) := fun _ =>
    leads_anyhow fun _ => hafter
  cases d with
  | startToken => exact leads_of_startToken backward_ends placeless_anyhow hraise hne htick hs hk rfl (hend _)
  | payload =>
    refine .step (hs ▸ hne _) (htick _ _ hs hk) (stepRead_leads hraise (F := True) ?_)
    exact Leads.with_k (tolerant_k.keeps_read _ _) hk (leads_anyhow fun bytes t ht => hafter (t.memWrite buf off bytes) ht)
  | readCrc => exact leads_of_readCrc backward_ends hraise hne htick hs hk (hend _)
  | sendToken | sendData | sendCrc | stopToken | finalRelease =>
    exact leads_of_write backward_ends hraise hne htick hs hk rfl (hend _)
  | dataResponse => exact leads_of_dataResponse backward_ends hraise hne htick hs hk (hend _)
  | busy w => exact leads_of_busy backward_ends placeless_anyhow hraise hne htick hs hk rfl (hend _)

end parts

/-! ### Operations run alone -/

/-- How many transport calls of a data phase run alone may follow (R177, R179, R183, R189). -/
def callsAfter : DataStep → Nat
  | .startToken | .sendToken | .stopToken => 2
  | .payload | .sendData | .busy _ => 1
  | .readCrc | .sendCrc | .dataResponse | .finalRelease => 0

theorem aloneNext_later {i : Instr} {d d' : DataStep} (h : aloneNext i d = some d') : callsAfter d' < callsAfter d := by
  unfold aloneNext at h
  split at h <;> cases h <;> simp [callsAfter]

section alone
variable {i : Instr} {s : State}

theorem ends_alone_cleanup (c : AbortCause) (t : State) : Ends (t.raised (fun c => .alone i (.cleanup c)) c) :=
  .step (alone_ne_idle (.cleanup c)) (tick_alone (p := .cleanup c) rfl) (ends_returnCall _ _)

theorem ends_alone_data {d : DataStep} (hs : s.seq = .alone i (.data d)) : Ends s := by
  generalize hm : callsAfter d = m
  induction m using Nat.strong_induction_on generalizing s d with
  | _ m ih =>
    refine ends_data (j := s.k) ends_alone_cleanup (fun d => alone_ne_idle (.data d)) (tick_alone_data rfl) (fun t _ => ?_) hs rfl
    have hlater : ∀ d', aloneNext i d = some d' → ∀ u : State, u.seq = .alone i (.data d') → Ends u := fun d' hd' u hu =>
      ih _ (hm ▸ aloneNext_later hd') hu rfl
    unfold State.afterAloneData
    split
    · exact hlater _ ‹_› _ rfl
    · exact hlater _ ‹_› _ rfl
    · exact ends_returnCall _ _

theorem ends_alone {p : AloneStep} (hs : s.seq = .alone i p) : Ends s := by
  cases p with
  | tx q =>
    refine ends_tx (n := s.iter) ends_alone_cleanup (fun p => alone_ne_idle (.tx p))
      (fun p t ht => (tick_alone ht).trans (tickAlone_tx ..)) (fun r v t _ => ?_) hs rfl
    unfold State.afterAloneTx
    split
    · exact ends_alone_data rfl
    · exact ends_returnCall _ _
    · exact ends_returnCall _ _
    · exact ends_returnCall _ _
    · exact ends_returnCall _ _
  | data d => exact ends_alone_data hs
  | cleanup c => exact .step (hs ▸ alone_ne_idle _) (tick_alone hs) (ends_returnCall _ _)

end alone

/-! ### Sector operations -/

section io
variable {t : Transfer} {here : IoStep → Seq} {s : State}
  (hne : ∀ p, here p ≠ .idle) (htick : ∀ p s, s.seq = here p → tick s = tickIo t here p s)
include hne htick

theorem ends_io_cleanup (c : AbortCause) (u : State) : Ends (u.raised (fun c => here (.cleanup c)) c) :=
  .step (hne (.cleanup c)) (htick (.cleanup c) _ rfl) (ends_returnCall _ _)

theorem ends_io_data {d : DataStep} (hs : s.seq = here (.data d))
    (hafter : ∀ u : State, u.k = s.k → Ends (u.afterIoData t here d)) : Ends s :=
  ends_data (j := s.k) (ends_io_cleanup hne htick) (fun d => hne (.data d)) (tick_io_data htick) hafter hs rfl

theorem ends_io_tx {x : IoTx} {q : TxStep} (hs : s.seq = here (.tx x q))
    (hafter : ∀ u : State, Ends (u.afterIoTx t here x)) : Ends s :=
  ends_tx (n := s.iter) (ends_io_cleanup hne htick) (fun q => hne (.tx x q))
    (fun _ _ hs => (htick _ _ hs).trans (tickIo_tx ..)) (fun _ _ u _ => hafter u) hs rfl

theorem ends_io_release (hs : s.seq = here (.data .finalRelease)) : Ends s :=
  ends_io_data hne htick hs fun _ _ => ends_returnCall _ _

theorem ends_io_stopped {w : BusyAfter} (hw : w ≠ .block) (hs : s.seq = here (.data (.busy w))) : Ends s := by
  refine ends_io_data hne htick hs fun u _ => ?_
  cases w with
  | block => exact absurd rfl hw
  | stopCommand | stopToken => exact ends_io_release hne htick (s := u.goto (here (.data .finalRelease))) rfl

theorem ends_io_stopRead {q : TxStep} (hs : s.seq = here (.tx .stopRead q)) : Ends s :=
  ends_io_tx hne htick hs fun u => ends_io_stopped hne htick (w := .stopCommand)
    (s := u.startPoll.goto (here (.data (.busy .stopCommand)))) (by simp) rfl

theorem ends_io_stopToken (hs : s.seq = here (.data .stopToken)) : Ends s :=
  ends_io_data hne htick hs fun u _ => ends_io_stopped hne htick (w := .stopToken)
    (s := u.startPoll.goto (here (.data (.busy .stopToken)))) (by simp) rfl

/-- The steps of the block with index `j`, when those of the next one end. -/
theorem ends_io_block {j : Nat} (hnext : ∀ u : State, u.seq = here (.nextBlock (j + 1)) → Ends u) {d : DataStep}
    (hs : s.seq = here (.data d)) (hk : s.k = j) : Ends s := by
  have hblock : ∀ u : State, u.k = j → Ends (u.afterBlock t here) := fun u hu => by
    unfold State.afterBlock
    split
    · exact hnext _ (by rw [← hu]; rfl)
    · exact ends_io_release hne htick (s := u.goto (here (.data .finalRelease))) rfl
  have station : ∀ d, (∀ u : State, u.k = j → Ends (u.afterIoData t here d)) → ∀ u : State, u.seq = here (.data d) →
      u.k = j → Ends u := fun d h u hu huk => ends_io_data hne htick hu fun v hv => h v (hv.trans huk)
  have hbusy := station (.busy .block) hblock
  have hresponse := station .dataResponse fun u hu => hbusy _ rfl hu
  have hsendCrc := station .sendCrc fun u hu => hresponse _ rfl hu
  have hsendData := station .sendData fun u hu => hsendCrc _ rfl hu
  have hreadCrc := station .readCrc hblock
  have hpayload := station .payload fun u hu => hreadCrc _ rfl hu
  cases d with
  | startToken => exact station .startToken (fun u hu => hpayload _ rfl hu) s hs hk
  | payload => exact hpayload s hs hk
  | readCrc => exact hreadCrc s hs hk
  | sendToken => exact station .sendToken (fun u hu => hsendData _ rfl hu) s hs hk
  | sendData => exact hsendData s hs hk
  | sendCrc => exact hsendCrc s hs hk
  | dataResponse => exact hresponse s hs hk
  | stopToken => exact ends_io_stopToken hne htick hs
  | finalRelease => exact ends_io_release hne htick hs
  | busy w =>
    by_cases hw : w = .block
    · exact hbusy s (hw ▸ hs) hk
    · exact ends_io_stopped hne htick hw hs

/-- A block begun, when the next one ends. -/
theorem ends_io_enterBlock {j : Nat} (hnext : ∀ u : State, u.seq = here (.nextBlock (j + 1)) → Ends u) (u : State) :
    Ends (u.enterBlock t here j) := by
  unfold State.enterBlock
  split
  · exact ends_io_block hne htick hnext (d := .startToken) rfl rfl
  · exact ends_io_block hne htick hnext (d := .sendToken) rfl rfl

/-- The loop over the blocks (R176, R188). -/
theorem ends_io_nextBlock {j : Nat} (hs : s.seq = here (.nextBlock j)) : Ends s := by
  generalize hleft : t.count.toNat - j = left
  induction left generalizing j s with
  | zero =>
    refine .step (hs ▸ hne _) (htick _ _ hs) ?_
    rw [if_neg (by omega)]
    split
    · exact ends_io_stopRead hne htick (q := .frame 0) rfl
    · exact ends_io_stopToken hne htick rfl
  | succ left ih =>
    refine .step (hs ▸ hne _) (htick _ _ hs) ?_
    rw [if_pos (by omega)]
    exact ends_io_enterBlock hne htick (fun u hu => ih hu (by omega)) s

/-- The data phase after a data command. -/
theorem ends_io_enterData (u : State) : Ends (u.enterData t here) := by
  unfold State.enterData
  split
  · exact ends_io_nextBlock hne htick rfl
  · exact ends_io_enterBlock hne htick (fun _ hv => ends_io_nextBlock hne htick hv) u

theorem ends_io_writeMany {q : TxStep} (hs : s.seq = here (.tx .writeMany q)) : Ends s :=
  ends_io_tx hne htick hs (ends_io_enterData hne htick)

theorem ends_io_eraseCount {q : TxStep} (hs : s.seq = here (.tx .eraseCount q)) : Ends s := by
  refine ends_io_tx hne htick hs fun u => ?_
  exact .step (hne (.address .writeMany)) (htick (.address .writeMany) _ rfl)
    (ends_io_writeMany hne htick (q := .frame _) rfl)

/-- Every transaction of a sector operation. -/
theorem ends_io_anyTx {x : IoTx} {q : TxStep} (hs : s.seq = here (.tx x q)) : Ends s := by
  cases x with
  | readOne | readMany | writeOne => exact ends_io_tx hne htick hs (ends_io_enterData hne htick)
  | writeMany => exact ends_io_writeMany hne htick hs
  | stopRead => exact ends_io_stopRead hne htick hs
  | eraseCount => exact ends_io_eraseCount hne htick hs
  | appErase => exact ends_io_tx hne htick hs fun u => ends_io_eraseCount hne htick (q := .frame t.count) rfl

theorem ends_io_address {x : IoTx} (hs : s.seq = here (.address x)) : Ends s :=
  .step (hs ▸ hne _) (htick _ _ hs) (ends_io_anyTx hne htick (x := x) (q := .frame _) rfl)

/-- Every position of a sector operation. -/
theorem ends_io {p : IoStep} (hs : s.seq = here p) : Ends s := by
  cases p with
  | range =>
    refine .step (hs ▸ hne _) (htick _ _ hs) ?_
    split
    · unfold Transfer.entry
      split
      · exact ends_io_address hne htick rfl
      · split
        · exact ends_io_anyTx hne htick (x := .appErase) (q := .frame 0) rfl
        · exact ends_io_address hne htick rfl
    · exact ends_returnCall _ _
  | address x => exact ends_io_address hne htick hs
  | tx x q => exact ends_io_anyTx hne htick hs
  | nextBlock j => exact ends_io_nextBlock hne htick hs
  | data d => exact ends_io_block hne htick (fun u hu => ends_io_nextBlock hne htick hu) hs rfl
  | cleanup c => exact .step (hs ▸ hne _) (htick _ _ hs) (ends_returnCall _ _)

end io

/-! ### Initialization -/

section bringUp
variable {next : Option Transfer} {s : State}

theorem ends_failBringUp (s : State) : Ends (s.failBringUp next) := by
  cases next <;> exact ends_returnCall _ _

theorem ends_bringUp_cleanup (c : AbortCause) (t : State) : Ends (t.raised (fun c => .bringUp next (.cleanup c)) c) :=
  .step (bringUp_ne_idle (.cleanup c)) (tick_bringUp (p := .cleanup c) rfl) (ends_failBringUp _)

theorem ends_bringUp_tx {x : InitTx} {q : TxStep} (hs : s.seq = .bringUp next (.tx x q))
    (hafter : ∀ r (t : State), t.iter = s.iter → Ends (t.afterInitTx next x r)) : Ends s :=
  ends_tx (n := s.iter) ends_bringUp_cleanup (fun q => bringUp_ne_idle (.tx x q))
    (fun _ _ hs => (tick_bringUp hs).trans (tickInit_tx ..)) (fun r _ t ht => hafter r t ht) hs rfl

theorem ends_bringUp_ready (hs : s.seq = .bringUp next .enterReady) : Ends s := by
  refine .step (hs ▸ bringUp_ne_idle _) (tick_bringUp hs) ?_
  cases next with
  | none => exact ends_returnCall _ _
  | some t => exact ends_io (here := .transfer t) (p := .range) (fun _ => nofun) (fun p s hs => by rw [tick, hs]) rfl

theorem ends_bringUp_fast (hs : s.seq = .bringUp next .fastClock) : Ends s :=
  .step (hs ▸ bringUp_ne_idle _) (tick_bringUp hs)
    (stepClock_leads (fun c t (_ : Anyhow c t) => ends_bringUp_cleanup c t) (leads_anyhow fun _ _ => ends_bringUp_ready rfl))

theorem ends_bringUp_power {q : TxStep} (hs : s.seq = .bringUp next (.tx .ocrPower q)) : Ends s :=
  ends_bringUp_tx hs fun _ _ _ => ends_bringUp_fast rfl

/-- ACMD41, when the rounds after it end (R156). -/
theorem ends_bringUp_opCond {q : TxStep}
    (hround : ∀ t : State, t.seq = .bringUp next .opCondRound → t.iter = s.iter → Ends t)
    (hs : s.seq = .bringUp next (.tx .opCond q)) : Ends s := by
  refine ends_bringUp_tx hs fun r t ht => ?_
  rw [State.afterInitTx]
  split
  · exact ends_bringUp_power rfl
  · exact hround _ rfl ht

/-- CMD55, when the rounds after it end (R156). -/
theorem ends_bringUp_appOpCond {q : TxStep}
    (hround : ∀ t : State, t.seq = .bringUp next .opCondRound → t.iter = s.iter → Ends t)
    (hs : s.seq = .bringUp next (.tx .appOpCond q)) : Ends s :=
  ends_bringUp_tx hs fun _ _ ht => ends_bringUp_opCond (fun u hu hiter => hround u hu (hiter.trans ht)) rfl

/-- The loop of step 5 (R156). -/
theorem ends_bringUp_round (hs : s.seq = .bringUp next .opCondRound) : Ends s := by
  generalize hleft : Config.nInitIter - s.iter = left
  induction left generalizing s with
  | zero =>
    refine .step (hs ▸ bringUp_ne_idle _) (tick_bringUp hs) ?_
    rw [if_neg (by omega)]
    exact ends_bringUp_cleanup _ _
  | succ left ih =>
    refine .step (hs ▸ bringUp_ne_idle _) (tick_bringUp hs) ?_
    rw [if_pos (by omega)]
    refine ends_bringUp_appOpCond (q := .frame 0) (fun u hu hiter => ih hu ?_) rfl
    rw [hiter]
    show Config.nInitIter - (s.iter + 1) = left
    omega

theorem ends_bringUp_voltage {q : TxStep} (hs : s.seq = .bringUp next (.tx .ocrVoltage q)) : Ends s :=
  ends_bringUp_tx hs fun _ _ _ => ends_bringUp_round rfl

theorem ends_bringUp_ifCond {q : TxStep} (hs : s.seq = .bringUp next (.tx .ifCond q)) : Ends s :=
  ends_bringUp_tx hs fun _ _ _ => ends_bringUp_voltage (q := .frame 0) rfl

theorem ends_bringUp_goIdle {q : TxStep} (hs : s.seq = .bringUp next (.tx .goIdle q)) : Ends s :=
  ends_bringUp_tx hs fun _ _ _ => ends_bringUp_ifCond (q := .frame _) rfl

theorem ends_bringUp_wake (hs : s.seq = .bringUp next .wake) : Ends s :=
  .step (hs ▸ bringUp_ne_idle _) (tick_bringUp hs)
    (stepWrite_leads (fun c t (_ : Anyhow c t) => ends_bringUp_cleanup c t)
      (leads_anyhow fun _ _ => ends_bringUp_goIdle (q := .frame 0) rfl))

/-- Every position of an initialization. -/
theorem ends_bringUp {p : InitStep} (hs : s.seq = .bringUp next p) : Ends s := by
  have hround : ∀ t : State, t.seq = .bringUp next .opCondRound → t.iter = s.iter → Ends t := fun t ht _ =>
    ends_bringUp_round ht
  cases p with
  | slowClock =>
    exact .step (hs ▸ bringUp_ne_idle _) (tick_bringUp hs)
      (stepClock_leads (fun c t (_ : Anyhow c t) => ends_bringUp_cleanup c t) (leads_anyhow fun _ _ => ends_bringUp_wake rfl))
  | wake => exact ends_bringUp_wake hs
  | opCondRound => exact ends_bringUp_round hs
  | fastClock => exact ends_bringUp_fast hs
  | enterReady => exact ends_bringUp_ready hs
  | cleanup c => exact .step (hs ▸ bringUp_ne_idle _) (tick_bringUp hs) (ends_failBringUp _)
  | tx x q =>
    cases x with
    | goIdle => exact ends_bringUp_goIdle hs
    | ifCond => exact ends_bringUp_ifCond hs
    | ocrVoltage => exact ends_bringUp_voltage hs
    | appOpCond => exact ends_bringUp_appOpCond hround hs
    | opCond => exact ends_bringUp_opCond hround hs
    | ocrPower => exact ends_bringUp_power hs

end bringUp

/-- Every position of the sequencer. -/
theorem ends (s : State) : Ends s := by
  cases hs : s.seq with
  | idle => exact .idle hs
  | bringUp next p => exact ends_bringUp hs
  | transfer t p => exact ends_io (here := .transfer t) (fun _ => nofun) (fun p s hs => by rw [tick, hs]) hs
  | sector t p => exact ends_io (here := .sector t) (fun _ => nofun) (fun p s hs => by rw [tick, hs]) hs
  | alone i p => exact ends_alone hs

/-- Settles O56: every position ends, and a state that meets the invariant meets no fault. -/
theorem everyCallInProgressEnds : Obligations.EveryCallInProgressEnds := fun s hi _ => (ends s).runs hi

end Sys2Proof.Proofs
end
